-- ==== Sys2Proof/Word.lean ====
section
/-! DEFINITION. The widths of the machine's words and the names of its registers, register pairs and jump
conditions (spec/00_scope.md R4, spec/10_state.md R11, R14, spec/30_encoding.md R85, spec/43_control_stack.md R190). -/

namespace Sys2Proof

/-- The addressable unit and the width of A, B, C, D, E, H, L, F: 8 bits (R4). -/
abbrev Byte := BitVec 8

/-- The width of SP, PC, the pair views and an address: 16 bits (R4). -/
abbrev Word := BitVec 16

/-- The seven general registers (R11). F is not one of them: no encoding names it (R85), and it has its own
accessors, which keep its low nibble zero (R13, R16). -/
inductive Reg8
  | b | c | d | e | h | l | a
  deriving DecidableEq, Repr

/-- The 16-bit views of R14: four pairs composed of two 8-bit halves, and the native fields SP and PC. -/
inductive Reg16
  | af | bc | de | hl | sp | pc
  deriving DecidableEq, Repr

/-- What the pair field `pp` of `LD rr,d16`, `INC rr`, `DEC rr` names (R85). -/
inductive PairSp
  | bc | de | hl | sp
  deriving DecidableEq, Repr

/-- What the pair field `qq` of `PUSH rr`, `POP rr` names (R85). -/
inductive PairAf
  | bc | de | hl | af
  deriving DecidableEq, Repr

/-- A JumpCondition (R190). -/
inductive Cond
  | nz | z | nc | c
  deriving DecidableEq, Repr

end Sys2Proof
end

