-- ==== Sys2Proof/Machine/Bits.lean ====
section
/-! DEFINITION. The bit-field, byte-order and extension helpers of spec/00_scope.md R6. -/

namespace Sys2Proof

/-- `hi:lo`: concatenation, `hi * 256 + lo` (R6, R83). -/
def wordOf (hi lo : Byte) : Word := BitVec.ofNat 16 (hi.toNat * 256 + lo.toNat)

/-- `v[15:8]` (R6). -/
def hiByte (v : Word) : Byte := BitVec.ofNat 8 (v.toNat / 256)

/-- `v[7:0]` (R6). -/
def loByte (v : Word) : Byte := BitVec.ofNat 8 v.toNat

/-- `zext_16` (R6). -/
def zext16 (v : Byte) : Word := v.setWidth 16

/-- `sext_16` (R6): `v` if bit 7 of `v` is 0, else `v + 0xFF00`. -/
def sext16 (v : Byte) : Word := if v.getLsbD 7 then zext16 v + 0xFF00 else zext16 v

end Sys2Proof
end

