-- ==== Sys2Proof/Syntax.lean ====
section
/-! DEFINITION. The instructions: one constructor per row of spec/opcode_table.json, in the table's order
(spec/30_encoding.md R84, R87, R88). An operand is the value of the operand bytes that follow the opcode (R86): `n` is
d8, a8, d16 or a16, `e` is the byte of a relative jump's displacement. -/

namespace Sys2Proof

/-- The admitted instructions (R84). -/
inductive Instr
  /-- `NOP`, 00 (R110). -/
  | nop
  /-- `LD BC,d16`, 01 (R117). -/
  | ldBcD16 (n : Word)
  /-- `INC BC`, 03 (R144). -/
  | incBc
  /-- `INC B`, 04 (R142). -/
  | incB
  /-- `DEC B`, 05 (R143). -/
  | decB
  /-- `LD B,d8`, 06 (R113). -/
  | ldBD8 (n : Byte)
  /-- `LD A,(BC)`, 0A (R115). -/
  | ldAIndBc
  /-- `DEC BC`, 0B (R145). -/
  | decBc
  /-- `INC C`, 0C (R142). -/
  | incC
  /-- `DEC C`, 0D (R143). -/
  | decC
  /-- `LD C,d8`, 0E (R113). -/
  | ldCD8 (n : Byte)
  /-- `LD DE,d16`, 11 (R117). -/
  | ldDeD16 (n : Word)
  /-- `INC DE`, 13 (R144). -/
  | incDe
  /-- `INC D`, 14 (R142). -/
  | incD
  /-- `DEC D`, 15 (R143). -/
  | decD
  /-- `LD D,d8`, 16 (R113). -/
  | ldDD8 (n : Byte)
  /-- `RLA`, 17 (R152). -/
  | rla
  /-- `JR e8`, 18 (R191). -/
  | jrE8 (e : Byte)
  /-- `LD A,(DE)`, 1A (R116). -/
  | ldAIndDe
  /-- `DEC DE`, 1B (R145). -/
  | decDe
  /-- `INC E`, 1C (R142). -/
  | incE
  /-- `DEC E`, 1D (R143). -/
  | decE
  /-- `LD E,d8`, 1E (R113). -/
  | ldED8 (n : Byte)
  /-- `JR NZ,e8`, 20 (R192). -/
  | jrNzE8 (e : Byte)
  /-- `LD HL,d16`, 21 (R117). -/
  | ldHlD16 (n : Word)
  /-- `LD (HL+),A`, 22 (R121). -/
  | ldIndHlIncA
  /-- `INC HL`, 23 (R144). -/
  | incHl
  /-- `INC H`, 24 (R142). -/
  | incH
  /-- `DEC H`, 25 (R143). -/
  | decH
  /-- `LD H,d8`, 26 (R113). -/
  | ldHD8 (n : Byte)
  /-- `JR Z,e8`, 28 (R192). -/
  | jrZE8 (e : Byte)
  /-- `DEC HL`, 2B (R145). -/
  | decHl
  /-- `INC L`, 2C (R142). -/
  | incL
  /-- `DEC L`, 2D (R143). -/
  | decL
  /-- `LD L,d8`, 2E (R113). -/
  | ldLD8 (n : Byte)
  /-- `JR NC,e8`, 30 (R192). -/
  | jrNcE8 (e : Byte)
  /-- `LD SP,d16`, 31 (R117). -/
  | ldSpD16 (n : Word)
  /-- `LD (HL-),A`, 32 (R122). -/
  | ldIndHlDecA
  /-- `INC SP`, 33 (R144). -/
  | incSp
  /-- `JR C,e8`, 38 (R192). -/
  | jrCE8 (e : Byte)
  /-- `DEC SP`, 3B (R145). -/
  | decSp
  /-- `INC A`, 3C (R142). -/
  | incA
  /-- `DEC A`, 3D (R143). -/
  | decA
  /-- `LD A,d8`, 3E (R113). -/
  | ldAD8 (n : Byte)
  /-- `LD B,B`, 40 (R112). -/
  | ldBB
  /-- `LD B,C`, 41 (R112). -/
  | ldBC
  /-- `LD B,D`, 42 (R112). -/
  | ldBD
  /-- `LD B,E`, 43 (R112). -/
  | ldBE
  /-- `LD B,H`, 44 (R112). -/
  | ldBH
  /-- `LD B,L`, 45 (R112). -/
  | ldBL
  /-- `LD B,(HL)`, 46 (R114). -/
  | ldBIndHl
  /-- `LD B,A`, 47 (R112). -/
  | ldBA
  /-- `LD C,B`, 48 (R112). -/
  | ldCB
  /-- `LD C,C`, 49 (R112). -/
  | ldCC
  /-- `LD C,D`, 4A (R112). -/
  | ldCD
  /-- `LD C,E`, 4B (R112). -/
  | ldCE
  /-- `LD C,H`, 4C (R112). -/
  | ldCH
  /-- `LD C,L`, 4D (R112). -/
  | ldCL
  /-- `LD C,(HL)`, 4E (R114). -/
  | ldCIndHl
  /-- `LD C,A`, 4F (R112). -/
  | ldCA
  /-- `LD D,B`, 50 (R112). -/
  | ldDB
  /-- `LD D,C`, 51 (R112). -/
  | ldDC
  /-- `LD D,D`, 52 (R112). -/
  | ldDD
  /-- `LD D,E`, 53 (R112). -/
  | ldDE
  /-- `LD D,H`, 54 (R112). -/
  | ldDH
  /-- `LD D,L`, 55 (R112). -/
  | ldDL
  /-- `LD D,(HL)`, 56 (R114). -/
  | ldDIndHl
  /-- `LD D,A`, 57 (R112). -/
  | ldDA
  /-- `LD E,B`, 58 (R112). -/
  | ldEB
  /-- `LD E,C`, 59 (R112). -/
  | ldEC
  /-- `LD E,D`, 5A (R112). -/
  | ldED
  /-- `LD E,E`, 5B (R112). -/
  | ldEE
  /-- `LD E,H`, 5C (R112). -/
  | ldEH
  /-- `LD E,L`, 5D (R112). -/
  | ldEL
  /-- `LD E,(HL)`, 5E (R114). -/
  | ldEIndHl
  /-- `LD E,A`, 5F (R112). -/
  | ldEA
  /-- `LD H,B`, 60 (R112). -/
  | ldHB
  /-- `LD H,C`, 61 (R112). -/
  | ldHC
  /-- `LD H,D`, 62 (R112). -/
  | ldHD
  /-- `LD H,E`, 63 (R112). -/
  | ldHE
  /-- `LD H,H`, 64 (R112). -/
  | ldHH
  /-- `LD H,L`, 65 (R112). -/
  | ldHL
  /-- `LD H,(HL)`, 66 (R114). -/
  | ldHIndHl
  /-- `LD H,A`, 67 (R112). -/
  | ldHA
  /-- `LD L,B`, 68 (R112). -/
  | ldLB
  /-- `LD L,C`, 69 (R112). -/
  | ldLC
  /-- `LD L,D`, 6A (R112). -/
  | ldLD
  /-- `LD L,E`, 6B (R112). -/
  | ldLE
  /-- `LD L,H`, 6C (R112). -/
  | ldLH
  /-- `LD L,L`, 6D (R112). -/
  | ldLL
  /-- `LD L,(HL)`, 6E (R114). -/
  | ldLIndHl
  /-- `LD L,A`, 6F (R112). -/
  | ldLA
  /-- `LD A,B`, 78 (R112). -/
  | ldAB
  /-- `LD A,C`, 79 (R112). -/
  | ldAC
  /-- `LD A,D`, 7A (R112). -/
  | ldAD
  /-- `LD A,E`, 7B (R112). -/
  | ldAE
  /-- `LD A,H`, 7C (R112). -/
  | ldAH
  /-- `LD A,L`, 7D (R112). -/
  | ldAL
  /-- `LD A,(HL)`, 7E (R114). -/
  | ldAIndHl
  /-- `LD A,A`, 7F (R112). -/
  | ldAA
  /-- `XOR A`, AF (R146). -/
  | xorA
  /-- `CP B`, B8 (R148). -/
  | cpB
  /-- `CP C`, B9 (R148). -/
  | cpC
  /-- `CP D`, BA (R148). -/
  | cpD
  /-- `CP E`, BB (R148). -/
  | cpE
  /-- `CP H`, BC (R148). -/
  | cpH
  /-- `CP L`, BD (R148). -/
  | cpL
  /-- `CP (HL)`, BE (R149). -/
  | cpIndHl
  /-- `CP A`, BF (R148). -/
  | cpA
  /-- `POP BC`, C1 (R197). -/
  | popBc
  /-- `PUSH BC`, C5 (R196). -/
  | pushBc
  /-- `RET`, C9 (R195). -/
  | ret
  /-- `PREFIX CB`, CB (R170). -/
  | prefixCb
  /-- `CALL a16`, CD (R194). -/
  | callA16 (n : Word)
  /-- `POP DE`, D1 (R197). -/
  | popDe
  /-- `PUSH DE`, D5 (R196). -/
  | pushDe
  /-- `LDH (a8),A`, E0 (R119). -/
  | ldhIndA8A (n : Byte)
  /-- `POP HL`, E1 (R197). -/
  | popHl
  /-- `LD (C),A`, E2 (R120). -/
  | ldIndCA
  /-- `PUSH HL`, E5 (R196). -/
  | pushHl
  /-- `LD (a16),A`, EA (R123). -/
  | ldIndA16A (n : Word)
  /-- `POP AF`, F1 (R198). -/
  | popAf
  /-- `PUSH AF`, F5 (R196). -/
  | pushAf
  /-- `LD SP,HL`, F9 (R118). -/
  | ldSpHl
  /-- `CP d8`, FE (R150). -/
  | cpD8 (n : Byte)
  /-- `RL B`, CB 10 (R172). -/
  | rlB
  /-- `RL C`, CB 11 (R172). -/
  | rlC
  /-- `RL D`, CB 12 (R172). -/
  | rlD
  /-- `RL E`, CB 13 (R172). -/
  | rlE
  /-- `RL H`, CB 14 (R172). -/
  | rlH
  /-- `RL L`, CB 15 (R172). -/
  | rlL
  /-- `RL A`, CB 17 (R172). -/
  | rlA
  /-- `BIT 0,B`, CB 40 (R171). -/
  | bit0B
  /-- `BIT 0,C`, CB 41 (R171). -/
  | bit0C
  /-- `BIT 0,D`, CB 42 (R171). -/
  | bit0D
  /-- `BIT 0,E`, CB 43 (R171). -/
  | bit0E
  /-- `BIT 0,H`, CB 44 (R171). -/
  | bit0H
  /-- `BIT 0,L`, CB 45 (R171). -/
  | bit0L
  /-- `BIT 0,A`, CB 47 (R171). -/
  | bit0A
  /-- `BIT 1,B`, CB 48 (R171). -/
  | bit1B
  /-- `BIT 1,C`, CB 49 (R171). -/
  | bit1C
  /-- `BIT 1,D`, CB 4A (R171). -/
  | bit1D
  /-- `BIT 1,E`, CB 4B (R171). -/
  | bit1E
  /-- `BIT 1,H`, CB 4C (R171). -/
  | bit1H
  /-- `BIT 1,L`, CB 4D (R171). -/
  | bit1L
  /-- `BIT 1,A`, CB 4F (R171). -/
  | bit1A
  /-- `BIT 2,B`, CB 50 (R171). -/
  | bit2B
  /-- `BIT 2,C`, CB 51 (R171). -/
  | bit2C
  /-- `BIT 2,D`, CB 52 (R171). -/
  | bit2D
  /-- `BIT 2,E`, CB 53 (R171). -/
  | bit2E
  /-- `BIT 2,H`, CB 54 (R171). -/
  | bit2H
  /-- `BIT 2,L`, CB 55 (R171). -/
  | bit2L
  /-- `BIT 2,A`, CB 57 (R171). -/
  | bit2A
  /-- `BIT 3,B`, CB 58 (R171). -/
  | bit3B
  /-- `BIT 3,C`, CB 59 (R171). -/
  | bit3C
  /-- `BIT 3,D`, CB 5A (R171). -/
  | bit3D
  /-- `BIT 3,E`, CB 5B (R171). -/
  | bit3E
  /-- `BIT 3,H`, CB 5C (R171). -/
  | bit3H
  /-- `BIT 3,L`, CB 5D (R171). -/
  | bit3L
  /-- `BIT 3,A`, CB 5F (R171). -/
  | bit3A
  /-- `BIT 4,B`, CB 60 (R171). -/
  | bit4B
  /-- `BIT 4,C`, CB 61 (R171). -/
  | bit4C
  /-- `BIT 4,D`, CB 62 (R171). -/
  | bit4D
  /-- `BIT 4,E`, CB 63 (R171). -/
  | bit4E
  /-- `BIT 4,H`, CB 64 (R171). -/
  | bit4H
  /-- `BIT 4,L`, CB 65 (R171). -/
  | bit4L
  /-- `BIT 4,A`, CB 67 (R171). -/
  | bit4A
  /-- `BIT 5,B`, CB 68 (R171). -/
  | bit5B
  /-- `BIT 5,C`, CB 69 (R171). -/
  | bit5C
  /-- `BIT 5,D`, CB 6A (R171). -/
  | bit5D
  /-- `BIT 5,E`, CB 6B (R171). -/
  | bit5E
  /-- `BIT 5,H`, CB 6C (R171). -/
  | bit5H
  /-- `BIT 5,L`, CB 6D (R171). -/
  | bit5L
  /-- `BIT 5,A`, CB 6F (R171). -/
  | bit5A
  /-- `BIT 6,B`, CB 70 (R171). -/
  | bit6B
  /-- `BIT 6,C`, CB 71 (R171). -/
  | bit6C
  /-- `BIT 6,D`, CB 72 (R171). -/
  | bit6D
  /-- `BIT 6,E`, CB 73 (R171). -/
  | bit6E
  /-- `BIT 6,H`, CB 74 (R171). -/
  | bit6H
  /-- `BIT 6,L`, CB 75 (R171). -/
  | bit6L
  /-- `BIT 6,A`, CB 77 (R171). -/
  | bit6A
  /-- `BIT 7,B`, CB 78 (R171). -/
  | bit7B
  /-- `BIT 7,C`, CB 79 (R171). -/
  | bit7C
  /-- `BIT 7,D`, CB 7A (R171). -/
  | bit7D
  /-- `BIT 7,E`, CB 7B (R171). -/
  | bit7E
  /-- `BIT 7,H`, CB 7C (R171). -/
  | bit7H
  /-- `BIT 7,L`, CB 7D (R171). -/
  | bit7L
  /-- `BIT 7,A`, CB 7F (R171). -/
  | bit7A
  deriving DecidableEq, Repr

end Sys2Proof
end

