-- ==== Sys2Proof/Config.lean ====
section
/-! DEFINITION. The parameters of the block (spec/00_scope.md R5): what an implementation fixes before a run and
no step changes. They are plain data, carried in State, so that every statement over states holds for every value
of every open parameter. The last part holds the two metadata values the spec leaves free (R94, R266). -/

namespace Sys2Proof

/-- The byte a memory array is filled with at construction: "zero- or 0xFF-filled" (R33, decision D15: open for
each of the four arrays). -/
inductive Fill
  | zeros
  | ones
  deriving DecidableEq, Repr

/-- The byte of a fill (R33). -/
def Fill.byte : Fill → Byte
  | .zeros => 0x00
  | .ones => 0xFF

/-- LY_DRIVER (R29, decision D17): whether an agent outside the block may set PPU.ly between two steps. -/
inductive LyDriver
  | static
  | external
  deriving DecidableEq, Repr

/-- RLA_ZERO (R152, decision D7): what `RLA` does to the ZERO flag. -/
inductive RlaZero
  | clear
  | preserve
  deriving DecidableEq, Repr

/-- The parameter list of R5. `boot` and `cart` are the two ROM images; their lengths are BOOT_LEN and CART_LEN.
`cartRebase` is CART_REBASE, bounded by 0x0100, the lowest cartridge address, so that the index never goes below
zero (R49: 0x0100 as the source says, 0 for the real hardware's mapping). -/
structure Config where
  boot       : List Byte
  cart       : List Byte
  cartRebase : Fin 0x101
  vramFill   : Fill
  wramFill   : Fill
  hramFill   : Fill
  ioFill     : Fill
  lyDriver   : LyDriver
  rlaZero    : RlaZero
  deriving DecidableEq, Repr

/-- The parameters at the values the spec gives them: CART_REBASE = 0x0100 (D21), LY_DRIVER = static (D17),
RLA_ZERO = clear (D7). The blobs are empty: no program is invented, and R250 accepts empty blobs.
DESIGN CHOICE (unsafe, log entry 2): the four fills, which the spec leaves open, are zero here. -/
def Config.standard : Config where
  boot := []
  cart := []
  cartRebase := ⟨0x100, by decide⟩
  vramFill := .zeros
  wramFill := .zeros
  hramFill := .zeros
  ioFill := .zeros
  lyDriver := .static
  rlaZero := .clear

/-- PC_INIT (R5, R33, decision D13). -/
def Config.pcInit : Word := 0x0000

/-- REG_INIT for A, B, C, D, E, H, L and F (R5, R33, decision D14). -/
def Config.regInit : Byte := 0x00

/-- REG_INIT for SP (R5, R33, decision D14). -/
def Config.spInit : Word := 0x0000

/-- LCDC_INIT (R5, R33, decision D16). -/
def Config.lcdcInit : Byte := 0x00

/-- SCY_INIT (R5, R33, decision D16). -/
def Config.scyInit : Byte := 0x00

/-- SCX_INIT (R5, R33, decision D16). -/
def Config.scxInit : Byte := 0x00

/-- LY_INIT (R5, R33, decision D16). -/
def Config.lyInit : Byte := 0x00

/-- A FREE VALUE (log entry 9): the cycle duration an Instruction's metadata carries. The source gives no figure for any
instruction (R266) and no rule reads it, so each Instruction, with its operands, has a value of its own: rows that share
a byte, such as `LD B,B` (40) and `BIT 0,B` (CB 40), are not tied together. DESIGN CHOICE: the value belongs to the
Instruction alone, whichever step decoded it. -/
opaque Config.cycleDuration : Instr → Nat

/-- A FREE VALUE (log entry 9): whether the metadata of a CB instruction reports length 2 (true) or 1 (false): of the
inner instruction of a pair, which the spec leaves unfixed between the two (R94, decision D25), and of `PREFIX CB`
itself, which it calls ambiguous between the two (conflict C9). -/
opaque Config.cbLengthIsTwo : Instr → Bool

end Sys2Proof
end

