-- ==== Sys2Proof/Machine/State.lean ====
section
/-! DEFINITION. The complete state of the block (spec/10_state.md R10, R30), the reasons a step stops
(spec/60_exceptions.md R221), and the state after construction, the block's only reset (R33, R250). -/

namespace Sys2Proof.Machine

/-- Which bus operation raised a BusError (R221). -/
inductive Access
  | read
  | write
  deriving DecidableEq, Repr

/-- The three kinds of fault of R221, with the information each records. Every one of them is the spec's own
terminal stop, so each is safe. -/
inductive Fault
  /-- `DecodeError(op)` (R90): raised by the decoder for a first byte outside the admitted set. Safe. -/
  | decodeError (op : Byte)
  /-- `DecodeError(CB, op2)` (R91): raised by `PREFIX CB` for a second byte outside the admitted CB set. Safe. -/
  | decodeErrorCb (op2 : Byte)
  /-- `BusError(read | write, addr)` (R41, R42, R51, R52): raised by any bus access to an unmapped address, and
  by any write to a ROM range or to 0xFF44. Safe. -/
  | busError (access : Access) (addr : Word)
  /-- `InputError(addr)` (R43): raised by any read of a ROM address past the end of its blob. Safe. -/
  | inputError (addr : Word)
  deriving DecidableEq, Repr

/-- Why an instruction has no meaning. -/
inductive Refusal
  /-- Raised by an arm of `exec` whose instruction has no meaning yet; no arm of this model does. Safe. -/
  | notModelled (mnemonic : String)
  deriving DecidableEq, Repr

/-- The contents of the mutable byte arrays VRAM, WRAM, IO and HRAM, keyed by bus address (R24: exactly one array
owns each address). Canonical form: addresses strictly rising, and no entry equal to what an unlisted address
reads as (`fillAt`, `Memory.Wf` in Machine/Ops.lean). -/
abbrev Memory := List Host.Cell

/-- What a running machine is made of: every register and memory of R10, with the parameters of R5 in `cfg`, which no
step changes. -/
structure Running where
  cfg     : Config
  a       : Byte
  b       : Byte
  c       : Byte
  d       : Byte
  e       : Byte
  h       : Byte
  l       : Byte
  f       : Byte
  sp      : Word
  pc      : Word
  mem     : Memory
  control : Byte
  scrollY : Byte
  scrollX : Byte
  ly      : Byte
  deriving DecidableEq, Repr

/-- `status` (R30): running from construction until the first `raise`, then faulted for ever. A running machine has the
registers and memories of `Running`; a faulted one has the kind and the information of its fault and nothing else, so
there is no register or byte of it to read (R223, decision D19). -/
inductive Status
  | running (m : Running)
  | faulted (f : Fault)
  deriving DecidableEq, Repr

/-- The complete state (R10): `status`, which holds the registers and memories for as long as the machine runs (R30). -/
structure State where
  status : Status
  deriving DecidableEq, Repr

/-- The state of a running machine (R30). -/
abbrev State.running (m : Running) : State := { status := .running m }

/-- The state `raise K(info)` leaves (R222): the fault, and nothing of the run that raised it (R223, decision D19). -/
abbrev State.faulted (f : Fault) : State := { status := .faulted f }

/-- The registers and memories after machine construction from a parameter list (R33, R250): every item at its
construction value, every array holding nothing but its fill, no bus access made. -/
def Running.construct (cfg : Config) : Running where
  cfg := cfg
  a := Config.regInit
  b := Config.regInit
  c := Config.regInit
  d := Config.regInit
  e := Config.regInit
  h := Config.regInit
  l := Config.regInit
  f := Config.regInit
  sp := Config.spInit
  pc := Config.pcInit
  mem := []
  control := Config.lcdcInit
  scrollY := Config.scyInit
  scrollX := Config.scxInit
  ly := Config.lyInit

/-- The registers and memories of `State.reset`. -/
def Running.reset : Running := Running.construct Config.standard

/-- Machine construction from a parameter list (R33, R250): the machine is running. -/
def State.construct (cfg : Config) : State := .running (Running.construct cfg)

/-- The machine right after construction with the spec's parameter values and two empty blobs (R33, R250). A
program is loaded from outside, before the first step (log entry 1). -/
def State.reset : State := State.construct Config.standard

end Sys2Proof.Machine
end

