-- ==== Sys2Proof/Machine/Ops.lean ====
section
/-! DEFINITION. The named operations over registers and memory: the register accessors (spec/10_state.md R13,
R14), the address-decode multiplexer and the bus (spec/20_memory.md R40 to R52), the byte fetch
(spec/30_encoding.md R82, R83), the stack transfers (spec/43_control_stack.md R193), and the raising of a fault
(spec/60_exceptions.md R222). -/

namespace Sys2Proof.Machine

/-- What one instruction answers. -/
abbrev Out := Host.Outcome State Fault Refusal

/-! ### Faults -/

/-- `raise K(info)` (R222), the one way an exception is taken: the step ends at once and nothing after it happens.
No register is saved and control goes nowhere (R226); there is no return (R227). -/
def raise {α : Type} (f : Fault) : Except Fault α := .error f

/-- The outcome of an operation on a running machine: the machine goes on, or the step ends in the fault. -/
def finish : Except Fault Running → Out
  | .ok m => .next (.running m)
  | .error f => .fault f

/-- An instruction whose effects are an operation on the registers and memories. Only a running machine executes: a
faulted one answers the fault it stopped with (R222, log entry 4). -/
def run (op : Running → Except Fault Running) (s : State) : Out :=
  match s.status with
  | .running m => finish (op m)
  | .faulted f => .fault f

/-! ### Registers -/

/-- `x[r]` for a general register (R13). -/
def Running.get8 (s : Running) : Reg8 → Byte
  | .b => s.b
  | .c => s.c
  | .d => s.d
  | .e => s.e
  | .h => s.h
  | .l => s.l
  | .a => s.a

/-- `x[r] <- v` for a general register (R13). -/
def Running.set8 (s : Running) (r : Reg8) (v : Byte) : Running :=
  match r with
  | .b => { s with b := v }
  | .c => { s with c := v }
  | .d => { s with d := v }
  | .e => { s with e := v }
  | .h => { s with h := v }
  | .l => { s with l := v }
  | .a => { s with a := v }

/-- `x[F] <- v`: the written value is first masked with 0xF0 (R13, R16). Every write of F goes through here. -/
def Running.setF (s : Running) (v : Byte) : Running := { s with f := v &&& 0xF0 }

/-- `xx[p]` (R14). -/
def Running.get16 (s : Running) : Reg16 → Word
  | .af => wordOf s.a s.f
  | .bc => wordOf s.b s.c
  | .de => wordOf s.d s.e
  | .hl => wordOf s.h s.l
  | .sp => s.sp
  | .pc => s.pc

/-- `xx[p] <- v` (R14): a pair's high half, then its low half. -/
def Running.set16 (s : Running) (p : Reg16) (v : Word) : Running :=
  match p with
  | .af => { s with a := hiByte v }.setF (loByte v)
  | .bc => { s with b := hiByte v, c := loByte v }
  | .de => { s with d := hiByte v, e := loByte v }
  | .hl => { s with h := hiByte v, l := loByte v }
  | .sp => { s with sp := v }
  | .pc => { s with pc := v }

/-! ### The address-decode multiplexer -/

/-- The target of a bus address (R45). -/
inductive Region
  | bootRom
  | cartRom
  | vram
  | wram
  | ppuControl
  | ppuScrollY
  | ppuLy
  | io
  | hram
  | unmapped
  deriving DecidableEq, Repr

/-- The address-decode table, first match wins (R41, R45, R46). -/
def region (n : Nat) : Region :=
  if n ≤ 0x00FF then .bootRom
  else if n ≤ 0x7FFF then .cartRom
  else if n ≤ 0x9FFF then .vram
  else if n ≤ 0xBFFF then .unmapped
  else if n ≤ 0xDFFF then .wram
  else if n ≤ 0xFEFF then .unmapped
  else if n = 0xFF40 then .ppuControl
  else if n = 0xFF42 then .ppuScrollY
  else if n = 0xFF44 then .ppuLy
  else if n ≤ 0xFF7F then .io
  else if n ≤ 0xFFFE then .hram
  else .unmapped

/-- What an address of a mutable byte array reads as while `Memory` does not list it: the fill of its array (R33);
`none` where no array answers the bus. -/
def fillAt (cfg : Config) (n : Nat) : Option Byte :=
  match region n with
  | .vram => some cfg.vramFill.byte
  | .wram => some cfg.wramFill.byte
  | .hram => some cfg.hramFill.byte
  | .io => some cfg.ioFill.byte
  | .bootRom | .cartRom | .ppuControl | .ppuScrollY | .ppuLy | .unmapped => none

/-! ### The byte arrays -/

/-- The byte listed at `n`, else `base`. -/
def Memory.byteAt (base : Byte) (n : Nat) : Memory → Byte
  | [] => base
  | (k, x) :: m => if k = n then x else Memory.byteAt base n m

/-- The list with the cell `(n, v)` at its place in the rising order. -/
def Memory.insert (n : Nat) (v : Byte) : Memory → Memory
  | [] => [(n, v)]
  | (k, x) :: m =>
    if n < k then (n, v) :: (k, x) :: m
    else if n = k then (n, v) :: m
    else (k, x) :: Memory.insert n v m

/-- The list without any cell at `n`. -/
def Memory.erase (n : Nat) : Memory → Memory
  | [] => []
  | (k, x) :: m => if k = n then Memory.erase n m else (k, x) :: Memory.erase n m

/-- A store: the byte an unlisted address reads as is not listed. -/
def Memory.put (base : Byte) (n : Nat) (v : Byte) (m : Memory) : Memory :=
  if v = base then m.erase n else m.insert n v

/-- Whether a cell may be listed: its address belongs to a mutable array and its byte is not the array's fill. -/
def listable (cfg : Config) (x : Host.Cell) : Bool :=
  match fillAt cfg x.1 with
  | some base => x.2 != base
  | none => false

/-- The canonical form of the byte arrays. -/
abbrev Memory.Wf (cfg : Config) (m : Memory) : Prop :=
  m.Pairwise (fun x y => x.1 < y.1) ∧ ∀ x ∈ m, listable cfg x = true

/-! ### The bus -/

/-- A read of a ROM blob at index `i` for the bus address `addr` (R43). -/
def readBlob (blob : List Byte) (i : Nat) (addr : Word) : Except Fault Byte :=
  match blob[i]? with
  | some v => .ok v
  | none => raise (.inputError addr)

/-- The byte an array with fill `fill` holds for the bus address `addr`. -/
def Running.arrayRead (s : Running) (fill : Fill) (addr : Word) : Byte :=
  s.mem.byteAt fill.byte addr.toNat

/-- The store of one byte into an array with fill `fill`. -/
def Running.arrayWrite (s : Running) (fill : Fill) (addr : Word) (v : Byte) : Running :=
  { s with mem := s.mem.put fill.byte addr.toNat v }

/-- `MemRead(addr, 1)` (R41). -/
def memRead (s : Running) (addr : Word) : Except Fault Byte :=
  match region addr.toNat with
  | .bootRom => readBlob s.cfg.boot addr.toNat addr
  | .cartRom => readBlob s.cfg.cart (addr.toNat - s.cfg.cartRebase.val) addr
  | .vram => .ok (s.arrayRead s.cfg.vramFill addr)
  | .wram => .ok (s.arrayRead s.cfg.wramFill addr)
  | .ppuControl => .ok s.control
  | .ppuScrollY => .ok s.scrollY
  | .ppuLy => .ok s.ly
  | .io => .ok (s.arrayRead s.cfg.ioFill addr)
  | .hram => .ok (s.arrayRead s.cfg.hramFill addr)
  | .unmapped => raise (.busError .read addr)

/-- `MemWrite(addr, 1, v)` (R42). -/
def memWrite (s : Running) (addr : Word) (v : Byte) : Except Fault Running :=
  match region addr.toNat with
  | .bootRom | .cartRom => raise (.busError .write addr)
  | .vram => .ok (s.arrayWrite s.cfg.vramFill addr v)
  | .wram => .ok (s.arrayWrite s.cfg.wramFill addr v)
  | .ppuControl => .ok { s with control := v }
  | .ppuScrollY => .ok { s with scrollY := v }
  | .ppuLy => raise (.busError .write addr)
  | .io => .ok (s.arrayWrite s.cfg.ioFill addr v)
  | .hram => .ok (s.arrayWrite s.cfg.hramFill addr v)
  | .unmapped => raise (.busError .write addr)

/-! ### Fetching -/

/-- `Fetch8()` (R82). -/
def fetch8 (s : Running) : Except Fault (Byte × Running) :=
  match memRead s s.pc with
  | .ok b => .ok (b, { s with pc := s.pc + 1 })
  | .error f => .error f

/-- `Fetch16()` (R83): low byte first. -/
def fetch16 (s : Running) : Except Fault (Word × Running) :=
  match fetch8 s with
  | .error f => .error f
  | .ok (lo, s₁) =>
    match fetch8 s₁ with
    | .error f => .error f
    | .ok (hi, s₂) => .ok (wordOf hi lo, s₂)

/-! ### The stack -/

/-- `Push8(v)` (R193). -/
def push8 (v : Byte) (s : Running) : Except Fault Running :=
  memWrite { s with sp := s.sp - 1 } (s.sp - 1) v

/-- `Pop8()` (R193). -/
def pop8 (s : Running) : Except Fault (Byte × Running) :=
  match memRead s s.sp with
  | .ok v => .ok (v, { s with sp := s.sp + 1 })
  | .error f => .error f

/-- `Push16(w)` (R193): high byte first. -/
def push16 (w : Word) (s : Running) : Except Fault Running :=
  match push8 (hiByte w) s with
  | .ok s₁ => push8 (loByte w) s₁
  | .error f => .error f

/-- `Pop16()` (R193): low byte first. -/
def pop16 (s : Running) : Except Fault (Word × Running) :=
  match pop8 s with
  | .error f => .error f
  | .ok (lo, s₁) =>
    match pop8 s₁ with
    | .error f => .error f
    | .ok (hi, s₂) => .ok (wordOf hi lo, s₂)

/-! ### The outside agent of R29 -/

/-- What the driver of PPU.ly may do between two steps (R29): nothing with LY_DRIVER = static, set the byte to any
value with LY_DRIVER = external. -/
def Running.driveLy (v : Byte) (s : Running) : Running :=
  match s.cfg.lyDriver with
  | .static => s
  | .external => { s with ly := v }

end Sys2Proof.Machine
end

