-- ==== Sys2Proof/Machine/Flags.lean ====
section
/-! DEFINITION. The flag register and every flag computation (spec/10_state.md R15 to R18, spec/41_alu.md R141,
R142, R143, R147, R151, R152, spec/42_cb_prefixed.md R171, R172). Each computation names all four flags (R17). -/

namespace Sys2Proof.Machine

/-- The four flags by name: ZERO, ADD_SUB, HALF_CARRY, CARRY (R15). -/
structure Flags where
  z : Bool
  n : Bool
  h : Bool
  c : Bool
  deriving DecidableEq, Repr

/-- `Z*0x80 + N*0x40 + H*0x20 + C*0x10` (R141; the positions are decision D3's, R15). -/
def Flags.byte (x : Flags) : Byte :=
  BitVec.ofNat 8 (x.z.toNat * 0x80 + x.n.toNat * 0x40 + x.h.toNat * 0x20 + x.c.toNat * 0x10)

/-- The flags a byte holds (R15). -/
def Flags.ofByte (v : Byte) : Flags where
  z := v.getLsbD 7
  n := v.getLsbD 6
  h := v.getLsbD 5
  c := v.getLsbD 4

/-- `F.Z`, `F.N`, `F.H`, `F.C` (R6). -/
def Running.flags (s : Running) : Flags := Flags.ofByte s.f

/-- A flag-writing instruction builds the new F from the four named bits and nothing else (R141). -/
def Running.setFlags (s : Running) (x : Flags) : Running := s.setF x.byte

/-- `INC r` (R142), from the old value of the register; `c` is the old carry, preserved. -/
def incFlags (old : Byte) (c : Bool) : Flags where
  z := old + 1 == 0
  n := false
  h := old.toNat % 16 == 0xF
  c := c

/-- `DEC r` (R143), from the old value of the register; `c` is the old carry, preserved. -/
def decFlags (old : Byte) (c : Bool) : Flags where
  z := old - 1 == 0
  n := true
  h := old.toNat % 16 == 0x0
  c := c

/-- `XOR A` (R146). -/
def xorAFlags : Flags where
  z := true
  n := false
  h := false
  c := false

/-- `SubFlags(a, v, cin)` (R147). -/
def subFlags (a v : Byte) (cin : Bool) : Flags where
  z := a - v - BitVec.ofNat 8 cin.toNat == 0
  n := true
  h := decide (a.toNat % 16 < v.toNat % 16 + cin.toNat)
  c := decide (a.toNat < v.toNat + cin.toNat)

/-- `RotL(v, cin)` (R151): the result and the bit rotated out. -/
def rotL (v : Byte) (cin : Bool) : Byte × Bool :=
  (v * 2 + BitVec.ofNat 8 cin.toNat, v.getLsbD 7)

/-- `RL r` (R172; N and H are decision D8's). -/
def rlFlags (res : Byte) (cout : Bool) : Flags where
  z := res == 0
  n := false
  h := false
  c := cout

/-- `RLA` (R152; Z is decision D7's parameter RLA_ZERO, N and H are decision D8's). `z` is the old ZERO flag. -/
def rlaFlags (p : RlaZero) (z cout : Bool) : Flags where
  z := match p with
    | .clear => false
    | .preserve => z
  n := false
  h := false
  c := cout

/-- `BIT b,r` (R171): `t` is the tested bit, `c` the old carry, preserved. -/
def bitFlags (t c : Bool) : Flags where
  z := !t
  n := false
  h := true
  c := c

end Sys2Proof.Machine
end

