-- ==== Sys2Proof/Machine/Operands.lean ====
section
/-! DEFINITION. The operand forms: `Src`, `Dst` and the general Load procedure (spec/40_nop_load.md R111), the pair
fields as views (spec/30_encoding.md R85), and the JumpConditions (spec/43_control_stack.md R190). -/

namespace Sys2Proof.Machine

/-- The view a `pp` field names (R85). -/
def pairSpView : PairSp → Reg16
  | .bc => .bc
  | .de => .de
  | .hl => .hl
  | .sp => .sp

/-- The view a `qq` field names (R85). -/
def pairAfView : PairAf → Reg16
  | .bc => .bc
  | .de => .de
  | .hl => .hl
  | .af => .af

/-- Whether a JumpCondition holds (R190). -/
def condHolds : Cond → Flags → Bool
  | .nz, x => !x.z
  | .z, x => x.z
  | .nc, x => !x.c
  | .c, x => x.c

/-- `0xFF00 + zext_16(n)`: a paged address (R86, R111). -/
def pagedAddr (n : Byte) : Word := 0xFF00 + zext16 n

/-- The source of a Load (R89, R111). -/
inductive Src
  | imm8 (n : Byte)
  | imm16 (n : Word)
  | reg8 (r : Reg8)
  | reg16 (p : Reg16)
  | indirect (p : Reg16)
  deriving DecidableEq, Repr

/-- The destination of a Load (R89, R111). The paged register is C, and the post-modified pointer is HL. -/
inductive Dst
  | pagedImm (n : Byte)
  | reg8 (r : Reg8)
  | reg16 (p : Reg16)
  | pagedC
  | indirectHlInc
  | indirectHlDec
  | abs (n : Word)
  deriving DecidableEq, Repr

/-- `Resolve(src)`: a 16-bit value, bytes zero-extended (R111). -/
def resolve (src : Src) (s : Running) : Except Fault Word :=
  match src with
  | .imm8 n => .ok (zext16 n)
  | .imm16 n => .ok n
  | .reg8 r => .ok (zext16 (s.get8 r))
  | .reg16 p => .ok (s.get16 p)
  | .indirect p =>
    match memRead s (s.get16 p) with
    | .ok v => .ok (zext16 v)
    | .error f => .error f

/-- The address a destination in memory stores to (R111); `none` for a register. -/
def dstAddr (dst : Dst) (s : Running) : Option Word :=
  match dst with
  | .pagedImm n => some (pagedAddr n)
  | .reg8 _ => none
  | .reg16 _ => none
  | .pagedC => some (pagedAddr s.c)
  | .indirectHlInc => some (s.get16 .hl)
  | .indirectHlDec => some (s.get16 .hl)
  | .abs n => some n

/-- A store through HL that then moves HL to `next` (R111): the write comes first, at the old HL. -/
def storeHlThen (next : Word) (v : Byte) (s : Running) : Except Fault Running :=
  match memWrite s (s.get16 .hl) v with
  | .ok s₁ => .ok (s₁.set16 .hl next)
  | .error f => .error f

/-- `Commit(dst, v)` (R111): an 8-bit place takes the low byte. -/
def commit (dst : Dst) (v : Word) (s : Running) : Except Fault Running :=
  match dst with
  | .pagedImm n => memWrite s (pagedAddr n) (loByte v)
  | .reg8 r => .ok (s.set8 r (loByte v))
  | .reg16 p => .ok (s.set16 p v)
  | .pagedC => memWrite s (pagedAddr s.c) (loByte v)
  | .indirectHlInc => storeHlThen (s.get16 .hl + 1) (loByte v) s
  | .indirectHlDec => storeHlThen (s.get16 .hl - 1) (loByte v) s
  | .abs n => memWrite s n (loByte v)

/-- `Load(dst, src)` (R111): the source is resolved, its memory read included, before the commit begins. -/
def load (dst : Dst) (src : Src) (s : Running) : Except Fault Running :=
  match resolve src s with
  | .ok v => commit dst v s
  | .error f => .error f

end Sys2Proof.Machine
end

