-- ==== Sys2Proof/Machine/Alu.lean ====
section
/-! DEFINITION. Increment, decrement, XOR A, compare and the accumulator rotate (spec/41_alu.md). -/

namespace Sys2Proof.Machine

/-- `INC r` (R142). -/
def incReg (r : Reg8) (s : Running) : Except Fault Running :=
  .ok ((s.set8 r (s.get8 r + 1)).setFlags (incFlags (s.get8 r) s.flags.c))

/-- `DEC r` (R143). -/
def decReg (r : Reg8) (s : Running) : Except Fault Running :=
  .ok ((s.set8 r (s.get8 r - 1)).setFlags (decFlags (s.get8 r) s.flags.c))

/-- `INC rr` (R144). -/
def incPair (p : Reg16) (s : Running) : Except Fault Running := .ok (s.set16 p (s.get16 p + 1))

/-- `DEC rr` (R145). -/
def decPair (p : Reg16) (s : Running) : Except Fault Running := .ok (s.set16 p (s.get16 p - 1))

/-- `XOR A` (R146). -/
def xorA (s : Running) : Except Fault Running := .ok ((s.set8 .a (s.a ^^^ s.a)).setFlags xorAFlags)

/-- Compare (R147 to R150): the operand is resolved, then the flags of accumulator minus operand, with carry-in 0, are
written; no register is. -/
def compareAcc (src : Src) (s : Running) : Except Fault Running :=
  match resolve src s with
  | .ok v => .ok (s.setFlags (subFlags s.a (loByte v) false))
  | .error f => .error f

/-- `RLA` (R152). -/
def rotateAcc (s : Running) : Except Fault Running :=
  let (res, cout) := rotL s.a s.flags.c
  .ok ((s.set8 .a res).setFlags (rlaFlags s.cfg.rlaZero s.flags.z cout))

/-- `INC BC`, 03 (R144). -/
def execIncBc (s : State) : Out := run (incPair .bc) s

/-- `INC B`, 04 (R142). -/
def execIncB (s : State) : Out := run (incReg .b) s

/-- `DEC B`, 05 (R143). -/
def execDecB (s : State) : Out := run (decReg .b) s

/-- `DEC BC`, 0B (R145). -/
def execDecBc (s : State) : Out := run (decPair .bc) s

/-- `INC C`, 0C (R142). -/
def execIncC (s : State) : Out := run (incReg .c) s

/-- `DEC C`, 0D (R143). -/
def execDecC (s : State) : Out := run (decReg .c) s

/-- `INC DE`, 13 (R144). -/
def execIncDe (s : State) : Out := run (incPair .de) s

/-- `INC D`, 14 (R142). -/
def execIncD (s : State) : Out := run (incReg .d) s

/-- `DEC D`, 15 (R143). -/
def execDecD (s : State) : Out := run (decReg .d) s

/-- `RLA`, 17 (R152). -/
def execRla (s : State) : Out := run rotateAcc s

/-- `DEC DE`, 1B (R145). -/
def execDecDe (s : State) : Out := run (decPair .de) s

/-- `INC E`, 1C (R142). -/
def execIncE (s : State) : Out := run (incReg .e) s

/-- `DEC E`, 1D (R143). -/
def execDecE (s : State) : Out := run (decReg .e) s

/-- `INC HL`, 23 (R144). -/
def execIncHl (s : State) : Out := run (incPair .hl) s

/-- `INC H`, 24 (R142). -/
def execIncH (s : State) : Out := run (incReg .h) s

/-- `DEC H`, 25 (R143). -/
def execDecH (s : State) : Out := run (decReg .h) s

/-- `DEC HL`, 2B (R145). -/
def execDecHl (s : State) : Out := run (decPair .hl) s

/-- `INC L`, 2C (R142). -/
def execIncL (s : State) : Out := run (incReg .l) s

/-- `DEC L`, 2D (R143). -/
def execDecL (s : State) : Out := run (decReg .l) s

/-- `INC SP`, 33 (R144). -/
def execIncSp (s : State) : Out := run (incPair .sp) s

/-- `DEC SP`, 3B (R145). -/
def execDecSp (s : State) : Out := run (decPair .sp) s

/-- `INC A`, 3C (R142). -/
def execIncA (s : State) : Out := run (incReg .a) s

/-- `DEC A`, 3D (R143). -/
def execDecA (s : State) : Out := run (decReg .a) s

/-- `XOR A`, AF (R146). -/
def execXorA (s : State) : Out := run xorA s

/-- `CP B`, B8 (R148). -/
def execCpB (s : State) : Out := run (compareAcc (.reg8 .b)) s

/-- `CP C`, B9 (R148). -/
def execCpC (s : State) : Out := run (compareAcc (.reg8 .c)) s

/-- `CP D`, BA (R148). -/
def execCpD (s : State) : Out := run (compareAcc (.reg8 .d)) s

/-- `CP E`, BB (R148). -/
def execCpE (s : State) : Out := run (compareAcc (.reg8 .e)) s

/-- `CP H`, BC (R148). -/
def execCpH (s : State) : Out := run (compareAcc (.reg8 .h)) s

/-- `CP L`, BD (R148). -/
def execCpL (s : State) : Out := run (compareAcc (.reg8 .l)) s

/-- `CP (HL)`, BE (R149). -/
def execCpIndHl (s : State) : Out := run (compareAcc (.indirect .hl)) s

/-- `CP A`, BF (R148). -/
def execCpA (s : State) : Out := run (compareAcc (.reg8 .a)) s

/-- `CP d8`, FE (R150). -/
def execCpD8 (n : Byte) (s : State) : Out := run (compareAcc (.imm8 n)) s

end Sys2Proof.Machine
end

