-- ==== Sys2Proof/Decode.lean ====
section
/-! DEFINITION. The decoder (spec/30_encoding.md R80, R86 to R93), total on any bytes and rejecting by name; after it
the encoding forms of R81 with their field codes (R85), and the encoder written from them. The decoder follows the
opcode maps R87 and R88, the encoder follows the bit patterns R81 and the field codes R85. -/

namespace Sys2Proof

/-! ### The field codes of R85 -/

/-- The 3-bit register field (R85); 110 names no register. -/
def Reg8.code : Reg8 → BitVec 3
  | .b => 0b000
  | .c => 0b001
  | .d => 0b010
  | .e => 0b011
  | .h => 0b100
  | .l => 0b101
  | .a => 0b111

/-- The register of a 3-bit field (R85). -/
def reg8OfCode : BitVec 3 → Option Reg8
  | 0b000 => some .b
  | 0b001 => some .c
  | 0b010 => some .d
  | 0b011 => some .e
  | 0b100 => some .h
  | 0b101 => some .l
  | 0b111 => some .a
  | _ => none

/-- The 2-bit pair field `pp` (R85). -/
def PairSp.code : PairSp → BitVec 2
  | .bc => 0b00
  | .de => 0b01
  | .hl => 0b10
  | .sp => 0b11

/-- The 2-bit pair field `qq` (R85). -/
def PairAf.code : PairAf → BitVec 2
  | .bc => 0b00
  | .de => 0b01
  | .hl => 0b10
  | .af => 0b11

/-- The 2-bit condition field `cc` (R85). -/
def Cond.code : Cond → BitVec 2
  | .nz => 0b00
  | .z => 0b01
  | .nc => 0b10
  | .c => 0b11

/-! ### The primary table -/

/-- What a first byte selects (R80): an instruction without operand bytes, or one that takes one operand byte, or
two (low byte first). -/
inductive Entry
  | op (i : Instr)
  | d8 (mk : Byte → Instr)
  | d16 (mk : Word → Instr)

/-- The primary opcode map (R87); `none` is a cell marked `-` (R90). -/
def primary : Byte → Option Entry
  | 0x00 => some (.op .nop)
  | 0x01 => some (.d16 .ldBcD16)
  | 0x03 => some (.op .incBc)
  | 0x04 => some (.op .incB)
  | 0x05 => some (.op .decB)
  | 0x06 => some (.d8 .ldBD8)
  | 0x0A => some (.op .ldAIndBc)
  | 0x0B => some (.op .decBc)
  | 0x0C => some (.op .incC)
  | 0x0D => some (.op .decC)
  | 0x0E => some (.d8 .ldCD8)
  | 0x11 => some (.d16 .ldDeD16)
  | 0x13 => some (.op .incDe)
  | 0x14 => some (.op .incD)
  | 0x15 => some (.op .decD)
  | 0x16 => some (.d8 .ldDD8)
  | 0x17 => some (.op .rla)
  | 0x18 => some (.d8 .jrE8)
  | 0x1A => some (.op .ldAIndDe)
  | 0x1B => some (.op .decDe)
  | 0x1C => some (.op .incE)
  | 0x1D => some (.op .decE)
  | 0x1E => some (.d8 .ldED8)
  | 0x20 => some (.d8 .jrNzE8)
  | 0x21 => some (.d16 .ldHlD16)
  | 0x22 => some (.op .ldIndHlIncA)
  | 0x23 => some (.op .incHl)
  | 0x24 => some (.op .incH)
  | 0x25 => some (.op .decH)
  | 0x26 => some (.d8 .ldHD8)
  | 0x28 => some (.d8 .jrZE8)
  | 0x2B => some (.op .decHl)
  | 0x2C => some (.op .incL)
  | 0x2D => some (.op .decL)
  | 0x2E => some (.d8 .ldLD8)
  | 0x30 => some (.d8 .jrNcE8)
  | 0x31 => some (.d16 .ldSpD16)
  | 0x32 => some (.op .ldIndHlDecA)
  | 0x33 => some (.op .incSp)
  | 0x38 => some (.d8 .jrCE8)
  | 0x3B => some (.op .decSp)
  | 0x3C => some (.op .incA)
  | 0x3D => some (.op .decA)
  | 0x3E => some (.d8 .ldAD8)
  | 0x40 => some (.op .ldBB)
  | 0x41 => some (.op .ldBC)
  | 0x42 => some (.op .ldBD)
  | 0x43 => some (.op .ldBE)
  | 0x44 => some (.op .ldBH)
  | 0x45 => some (.op .ldBL)
  | 0x46 => some (.op .ldBIndHl)
  | 0x47 => some (.op .ldBA)
  | 0x48 => some (.op .ldCB)
  | 0x49 => some (.op .ldCC)
  | 0x4A => some (.op .ldCD)
  | 0x4B => some (.op .ldCE)
  | 0x4C => some (.op .ldCH)
  | 0x4D => some (.op .ldCL)
  | 0x4E => some (.op .ldCIndHl)
  | 0x4F => some (.op .ldCA)
  | 0x50 => some (.op .ldDB)
  | 0x51 => some (.op .ldDC)
  | 0x52 => some (.op .ldDD)
  | 0x53 => some (.op .ldDE)
  | 0x54 => some (.op .ldDH)
  | 0x55 => some (.op .ldDL)
  | 0x56 => some (.op .ldDIndHl)
  | 0x57 => some (.op .ldDA)
  | 0x58 => some (.op .ldEB)
  | 0x59 => some (.op .ldEC)
  | 0x5A => some (.op .ldED)
  | 0x5B => some (.op .ldEE)
  | 0x5C => some (.op .ldEH)
  | 0x5D => some (.op .ldEL)
  | 0x5E => some (.op .ldEIndHl)
  | 0x5F => some (.op .ldEA)
  | 0x60 => some (.op .ldHB)
  | 0x61 => some (.op .ldHC)
  | 0x62 => some (.op .ldHD)
  | 0x63 => some (.op .ldHE)
  | 0x64 => some (.op .ldHH)
  | 0x65 => some (.op .ldHL)
  | 0x66 => some (.op .ldHIndHl)
  | 0x67 => some (.op .ldHA)
  | 0x68 => some (.op .ldLB)
  | 0x69 => some (.op .ldLC)
  | 0x6A => some (.op .ldLD)
  | 0x6B => some (.op .ldLE)
  | 0x6C => some (.op .ldLH)
  | 0x6D => some (.op .ldLL)
  | 0x6E => some (.op .ldLIndHl)
  | 0x6F => some (.op .ldLA)
  | 0x78 => some (.op .ldAB)
  | 0x79 => some (.op .ldAC)
  | 0x7A => some (.op .ldAD)
  | 0x7B => some (.op .ldAE)
  | 0x7C => some (.op .ldAH)
  | 0x7D => some (.op .ldAL)
  | 0x7E => some (.op .ldAIndHl)
  | 0x7F => some (.op .ldAA)
  | 0xAF => some (.op .xorA)
  | 0xB8 => some (.op .cpB)
  | 0xB9 => some (.op .cpC)
  | 0xBA => some (.op .cpD)
  | 0xBB => some (.op .cpE)
  | 0xBC => some (.op .cpH)
  | 0xBD => some (.op .cpL)
  | 0xBE => some (.op .cpIndHl)
  | 0xBF => some (.op .cpA)
  | 0xC1 => some (.op .popBc)
  | 0xC5 => some (.op .pushBc)
  | 0xC9 => some (.op .ret)
  | 0xCB => some (.op .prefixCb)
  | 0xCD => some (.d16 .callA16)
  | 0xD1 => some (.op .popDe)
  | 0xD5 => some (.op .pushDe)
  | 0xE0 => some (.d8 .ldhIndA8A)
  | 0xE1 => some (.op .popHl)
  | 0xE2 => some (.op .ldIndCA)
  | 0xE5 => some (.op .pushHl)
  | 0xEA => some (.d16 .ldIndA16A)
  | 0xF1 => some (.op .popAf)
  | 0xF5 => some (.op .pushAf)
  | 0xF9 => some (.op .ldSpHl)
  | 0xFE => some (.d8 .cpD8)
  | _ => none

/-- Why a byte sequence is no instruction. -/
inductive DecodeFault
  /-- The sequence ends before the instruction does. -/
  | truncated
  /-- The first byte is not in the admitted set (R90). -/
  | primary (op : Byte)
  /-- The byte after 0xCB is not in the admitted set (R91). -/
  | cb (op2 : Byte)
  deriving DecidableEq, Repr

/-- `decode` (R89, R93) on a byte sequence: the Instruction of the first byte with its operand bytes, and the bytes
that follow it. 0xCB gives the sentinel `PREFIX CB`, whose second byte is left to `decodeCb`. -/
def decode : List Byte → Except DecodeFault (Instr × List Byte)
  | [] => .error .truncated
  | op :: rest =>
    match primary op with
    | none => .error (.primary op)
    | some (.op i) => .ok (i, rest)
    | some (.d8 mk) =>
      match rest with
      | n :: rest => .ok (mk n, rest)
      | [] => .error .truncated
    | some (.d16 mk) =>
      match rest with
      | lo :: hi :: rest => .ok (mk (wordOf hi lo), rest)
      | _ => .error .truncated

/-! ### The CB table -/

/-- What a second byte after 0xCB selects (R88, R89): a register rotate or a bit test. -/
inductive CbOp
  | rl (r : Reg8)
  | bit (b : Fin 8) (r : Reg8)
  deriving DecidableEq, Repr

/-- The CB opcode map (R88) by the fields of R81: `00010rrr` is `RL r`, `01bbbrrr` is `BIT b,r`; `rrr` = 110 and every
other byte are not admitted (R91). -/
def decodeCbOp (op2 : Byte) : Option CbOp :=
  match reg8OfCode (op2.extractLsb' 0 3) with
  | none => none
  | some r =>
    if op2.extractLsb' 3 5 = 0b00010 then some (.rl r)
    else if op2.extractLsb' 6 2 = 0b01 then some (.bit (op2.extractLsb' 3 3).toFin r)
    else none

/-- The instruction a CB operation is a row of (R88). -/
def CbOp.toInstr : CbOp → Instr
  | .rl .b => .rlB
  | .rl .c => .rlC
  | .rl .d => .rlD
  | .rl .e => .rlE
  | .rl .h => .rlH
  | .rl .l => .rlL
  | .rl .a => .rlA
  | .bit 0 .b => .bit0B
  | .bit 0 .c => .bit0C
  | .bit 0 .d => .bit0D
  | .bit 0 .e => .bit0E
  | .bit 0 .h => .bit0H
  | .bit 0 .l => .bit0L
  | .bit 0 .a => .bit0A
  | .bit 1 .b => .bit1B
  | .bit 1 .c => .bit1C
  | .bit 1 .d => .bit1D
  | .bit 1 .e => .bit1E
  | .bit 1 .h => .bit1H
  | .bit 1 .l => .bit1L
  | .bit 1 .a => .bit1A
  | .bit 2 .b => .bit2B
  | .bit 2 .c => .bit2C
  | .bit 2 .d => .bit2D
  | .bit 2 .e => .bit2E
  | .bit 2 .h => .bit2H
  | .bit 2 .l => .bit2L
  | .bit 2 .a => .bit2A
  | .bit 3 .b => .bit3B
  | .bit 3 .c => .bit3C
  | .bit 3 .d => .bit3D
  | .bit 3 .e => .bit3E
  | .bit 3 .h => .bit3H
  | .bit 3 .l => .bit3L
  | .bit 3 .a => .bit3A
  | .bit 4 .b => .bit4B
  | .bit 4 .c => .bit4C
  | .bit 4 .d => .bit4D
  | .bit 4 .e => .bit4E
  | .bit 4 .h => .bit4H
  | .bit 4 .l => .bit4L
  | .bit 4 .a => .bit4A
  | .bit 5 .b => .bit5B
  | .bit 5 .c => .bit5C
  | .bit 5 .d => .bit5D
  | .bit 5 .e => .bit5E
  | .bit 5 .h => .bit5H
  | .bit 5 .l => .bit5L
  | .bit 5 .a => .bit5A
  | .bit 6 .b => .bit6B
  | .bit 6 .c => .bit6C
  | .bit 6 .d => .bit6D
  | .bit 6 .e => .bit6E
  | .bit 6 .h => .bit6H
  | .bit 6 .l => .bit6L
  | .bit 6 .a => .bit6A
  | .bit 7 .b => .bit7B
  | .bit 7 .c => .bit7C
  | .bit 7 .d => .bit7D
  | .bit 7 .e => .bit7E
  | .bit 7 .h => .bit7H
  | .bit 7 .l => .bit7L
  | .bit 7 .a => .bit7A

/-- `decode_cb` (R88, R91). -/
def decodeCb (op2 : Byte) : Option Instr := (decodeCbOp op2).map CbOp.toInstr

/-- A whole instruction from a byte sequence, the second byte of a CB pair included: the instruction a step reports
as the one that ran (R93), and the bytes that follow it. -/
def decodeWhole (bytes : List Byte) : Except DecodeFault (Instr × List Byte) :=
  match decode bytes with
  | .ok (.prefixCb, op2 :: rest) =>
    match decodeCb op2 with
    | some i => .ok (i, rest)
    | none => .error (.cb op2)
  | .ok (.prefixCb, []) => .error .truncated
  | r => r

/-! ### The opcode table's numbering -/

/-- The first three bytes of the instruction whose bits are `w`, numbered as spec/opcode_table.json numbers them. A
row of format CB is numbered there as one 16-bit number with the first byte, 0xCB, in bits 15 to 8 ("0xCB7C"); in
every other row the first byte is in bits 7 to 0 and a later byte's bits count on. Every bit above `nbits` is 0
(log entry 6). -/
def tableBytes (nbits w : Nat) : Byte × Byte × Byte :=
  let v := w % 2 ^ nbits
  if nbits = 16 ∧ v / 0x100 = 0xCB then (0xCB, BitVec.ofNat 8 v, 0)
  else (BitVec.ofNat 8 v, BitVec.ofNat 8 (v / 0x100), BitVec.ofNat 8 (v / 0x10000))

/-- The instruction the decoder reads from a table row's word. The 8-bit row `PREFIX CB` is the first byte alone. -/
def decodeTableWord (nbits w : Nat) : Option Instr :=
  let (b₀, b₁, b₂) := tableBytes nbits w
  if nbits ≤ 8 then
    match decode [b₀, b₁, b₂] with
    | .ok (i, _) => some i
    | .error _ => none
  else
    match decodeWhole [b₀, b₁, b₂] with
    | .ok (i, _) => some i
    | .error _ => none

/-! ### The encoding forms and the encoder -/

/-- The forms of R81 with their fields. -/
inductive Form
  | nop
  | ldRegReg (dst src : Reg8)
  | ldRegIndHl (dst : Reg8)
  | ldRegImm (dst : Reg8) (n : Byte)
  | ldAIndBc
  | ldAIndDe
  | ldPairImm (p : PairSp) (n : Word)
  | ldSpHl
  | ldhIndImmA (n : Byte)
  | ldIndCA
  | ldIndHlIncA
  | ldIndHlDecA
  | ldIndAbsA (n : Word)
  | incReg (r : Reg8)
  | decReg (r : Reg8)
  | incPair (p : PairSp)
  | decPair (p : PairSp)
  | xorA
  | cpReg (r : Reg8)
  | cpIndHl
  | cpImm (n : Byte)
  | rla
  | jr (e : Byte)
  | jrCond (cc : Cond) (e : Byte)
  | call (n : Word)
  | ret
  | push (q : PairAf)
  | pop (q : PairAf)
  | prefixCb
  | cb (o : CbOp)
  deriving DecidableEq, Repr

/-- The instruction a form with given fields is (R81, R85). -/
def Form.toInstr : Form → Instr
  | .nop => .nop
  | .ldPairImm .bc n => .ldBcD16 n
  | .incPair .bc => .incBc
  | .incReg .b => .incB
  | .decReg .b => .decB
  | .ldRegImm .b n => .ldBD8 n
  | .ldAIndBc => .ldAIndBc
  | .decPair .bc => .decBc
  | .incReg .c => .incC
  | .decReg .c => .decC
  | .ldRegImm .c n => .ldCD8 n
  | .ldPairImm .de n => .ldDeD16 n
  | .incPair .de => .incDe
  | .incReg .d => .incD
  | .decReg .d => .decD
  | .ldRegImm .d n => .ldDD8 n
  | .rla => .rla
  | .jr e => .jrE8 e
  | .ldAIndDe => .ldAIndDe
  | .decPair .de => .decDe
  | .incReg .e => .incE
  | .decReg .e => .decE
  | .ldRegImm .e n => .ldED8 n
  | .jrCond .nz e => .jrNzE8 e
  | .ldPairImm .hl n => .ldHlD16 n
  | .ldIndHlIncA => .ldIndHlIncA
  | .incPair .hl => .incHl
  | .incReg .h => .incH
  | .decReg .h => .decH
  | .ldRegImm .h n => .ldHD8 n
  | .jrCond .z e => .jrZE8 e
  | .decPair .hl => .decHl
  | .incReg .l => .incL
  | .decReg .l => .decL
  | .ldRegImm .l n => .ldLD8 n
  | .jrCond .nc e => .jrNcE8 e
  | .ldPairImm .sp n => .ldSpD16 n
  | .ldIndHlDecA => .ldIndHlDecA
  | .incPair .sp => .incSp
  | .jrCond .c e => .jrCE8 e
  | .decPair .sp => .decSp
  | .incReg .a => .incA
  | .decReg .a => .decA
  | .ldRegImm .a n => .ldAD8 n
  | .ldRegReg .b .b => .ldBB
  | .ldRegReg .b .c => .ldBC
  | .ldRegReg .b .d => .ldBD
  | .ldRegReg .b .e => .ldBE
  | .ldRegReg .b .h => .ldBH
  | .ldRegReg .b .l => .ldBL
  | .ldRegIndHl .b => .ldBIndHl
  | .ldRegReg .b .a => .ldBA
  | .ldRegReg .c .b => .ldCB
  | .ldRegReg .c .c => .ldCC
  | .ldRegReg .c .d => .ldCD
  | .ldRegReg .c .e => .ldCE
  | .ldRegReg .c .h => .ldCH
  | .ldRegReg .c .l => .ldCL
  | .ldRegIndHl .c => .ldCIndHl
  | .ldRegReg .c .a => .ldCA
  | .ldRegReg .d .b => .ldDB
  | .ldRegReg .d .c => .ldDC
  | .ldRegReg .d .d => .ldDD
  | .ldRegReg .d .e => .ldDE
  | .ldRegReg .d .h => .ldDH
  | .ldRegReg .d .l => .ldDL
  | .ldRegIndHl .d => .ldDIndHl
  | .ldRegReg .d .a => .ldDA
  | .ldRegReg .e .b => .ldEB
  | .ldRegReg .e .c => .ldEC
  | .ldRegReg .e .d => .ldED
  | .ldRegReg .e .e => .ldEE
  | .ldRegReg .e .h => .ldEH
  | .ldRegReg .e .l => .ldEL
  | .ldRegIndHl .e => .ldEIndHl
  | .ldRegReg .e .a => .ldEA
  | .ldRegReg .h .b => .ldHB
  | .ldRegReg .h .c => .ldHC
  | .ldRegReg .h .d => .ldHD
  | .ldRegReg .h .e => .ldHE
  | .ldRegReg .h .h => .ldHH
  | .ldRegReg .h .l => .ldHL
  | .ldRegIndHl .h => .ldHIndHl
  | .ldRegReg .h .a => .ldHA
  | .ldRegReg .l .b => .ldLB
  | .ldRegReg .l .c => .ldLC
  | .ldRegReg .l .d => .ldLD
  | .ldRegReg .l .e => .ldLE
  | .ldRegReg .l .h => .ldLH
  | .ldRegReg .l .l => .ldLL
  | .ldRegIndHl .l => .ldLIndHl
  | .ldRegReg .l .a => .ldLA
  | .ldRegReg .a .b => .ldAB
  | .ldRegReg .a .c => .ldAC
  | .ldRegReg .a .d => .ldAD
  | .ldRegReg .a .e => .ldAE
  | .ldRegReg .a .h => .ldAH
  | .ldRegReg .a .l => .ldAL
  | .ldRegIndHl .a => .ldAIndHl
  | .ldRegReg .a .a => .ldAA
  | .xorA => .xorA
  | .cpReg .b => .cpB
  | .cpReg .c => .cpC
  | .cpReg .d => .cpD
  | .cpReg .e => .cpE
  | .cpReg .h => .cpH
  | .cpReg .l => .cpL
  | .cpIndHl => .cpIndHl
  | .cpReg .a => .cpA
  | .pop .bc => .popBc
  | .push .bc => .pushBc
  | .ret => .ret
  | .prefixCb => .prefixCb
  | .call n => .callA16 n
  | .pop .de => .popDe
  | .push .de => .pushDe
  | .ldhIndImmA n => .ldhIndA8A n
  | .pop .hl => .popHl
  | .ldIndCA => .ldIndCA
  | .push .hl => .pushHl
  | .ldIndAbsA n => .ldIndA16A n
  | .pop .af => .popAf
  | .push .af => .pushAf
  | .ldSpHl => .ldSpHl
  | .cpImm n => .cpD8 n
  | .cb o => o.toInstr

/-- The form an instruction is an instance of (R81, R85). -/
def Instr.form : Instr → Form
  | .nop => .nop
  | .ldBcD16 n => .ldPairImm .bc n
  | .incBc => .incPair .bc
  | .incB => .incReg .b
  | .decB => .decReg .b
  | .ldBD8 n => .ldRegImm .b n
  | .ldAIndBc => .ldAIndBc
  | .decBc => .decPair .bc
  | .incC => .incReg .c
  | .decC => .decReg .c
  | .ldCD8 n => .ldRegImm .c n
  | .ldDeD16 n => .ldPairImm .de n
  | .incDe => .incPair .de
  | .incD => .incReg .d
  | .decD => .decReg .d
  | .ldDD8 n => .ldRegImm .d n
  | .rla => .rla
  | .jrE8 e => .jr e
  | .ldAIndDe => .ldAIndDe
  | .decDe => .decPair .de
  | .incE => .incReg .e
  | .decE => .decReg .e
  | .ldED8 n => .ldRegImm .e n
  | .jrNzE8 e => .jrCond .nz e
  | .ldHlD16 n => .ldPairImm .hl n
  | .ldIndHlIncA => .ldIndHlIncA
  | .incHl => .incPair .hl
  | .incH => .incReg .h
  | .decH => .decReg .h
  | .ldHD8 n => .ldRegImm .h n
  | .jrZE8 e => .jrCond .z e
  | .decHl => .decPair .hl
  | .incL => .incReg .l
  | .decL => .decReg .l
  | .ldLD8 n => .ldRegImm .l n
  | .jrNcE8 e => .jrCond .nc e
  | .ldSpD16 n => .ldPairImm .sp n
  | .ldIndHlDecA => .ldIndHlDecA
  | .incSp => .incPair .sp
  | .jrCE8 e => .jrCond .c e
  | .decSp => .decPair .sp
  | .incA => .incReg .a
  | .decA => .decReg .a
  | .ldAD8 n => .ldRegImm .a n
  | .ldBB => .ldRegReg .b .b
  | .ldBC => .ldRegReg .b .c
  | .ldBD => .ldRegReg .b .d
  | .ldBE => .ldRegReg .b .e
  | .ldBH => .ldRegReg .b .h
  | .ldBL => .ldRegReg .b .l
  | .ldBIndHl => .ldRegIndHl .b
  | .ldBA => .ldRegReg .b .a
  | .ldCB => .ldRegReg .c .b
  | .ldCC => .ldRegReg .c .c
  | .ldCD => .ldRegReg .c .d
  | .ldCE => .ldRegReg .c .e
  | .ldCH => .ldRegReg .c .h
  | .ldCL => .ldRegReg .c .l
  | .ldCIndHl => .ldRegIndHl .c
  | .ldCA => .ldRegReg .c .a
  | .ldDB => .ldRegReg .d .b
  | .ldDC => .ldRegReg .d .c
  | .ldDD => .ldRegReg .d .d
  | .ldDE => .ldRegReg .d .e
  | .ldDH => .ldRegReg .d .h
  | .ldDL => .ldRegReg .d .l
  | .ldDIndHl => .ldRegIndHl .d
  | .ldDA => .ldRegReg .d .a
  | .ldEB => .ldRegReg .e .b
  | .ldEC => .ldRegReg .e .c
  | .ldED => .ldRegReg .e .d
  | .ldEE => .ldRegReg .e .e
  | .ldEH => .ldRegReg .e .h
  | .ldEL => .ldRegReg .e .l
  | .ldEIndHl => .ldRegIndHl .e
  | .ldEA => .ldRegReg .e .a
  | .ldHB => .ldRegReg .h .b
  | .ldHC => .ldRegReg .h .c
  | .ldHD => .ldRegReg .h .d
  | .ldHE => .ldRegReg .h .e
  | .ldHH => .ldRegReg .h .h
  | .ldHL => .ldRegReg .h .l
  | .ldHIndHl => .ldRegIndHl .h
  | .ldHA => .ldRegReg .h .a
  | .ldLB => .ldRegReg .l .b
  | .ldLC => .ldRegReg .l .c
  | .ldLD => .ldRegReg .l .d
  | .ldLE => .ldRegReg .l .e
  | .ldLH => .ldRegReg .l .h
  | .ldLL => .ldRegReg .l .l
  | .ldLIndHl => .ldRegIndHl .l
  | .ldLA => .ldRegReg .l .a
  | .ldAB => .ldRegReg .a .b
  | .ldAC => .ldRegReg .a .c
  | .ldAD => .ldRegReg .a .d
  | .ldAE => .ldRegReg .a .e
  | .ldAH => .ldRegReg .a .h
  | .ldAL => .ldRegReg .a .l
  | .ldAIndHl => .ldRegIndHl .a
  | .ldAA => .ldRegReg .a .a
  | .xorA => .xorA
  | .cpB => .cpReg .b
  | .cpC => .cpReg .c
  | .cpD => .cpReg .d
  | .cpE => .cpReg .e
  | .cpH => .cpReg .h
  | .cpL => .cpReg .l
  | .cpIndHl => .cpIndHl
  | .cpA => .cpReg .a
  | .popBc => .pop .bc
  | .pushBc => .push .bc
  | .ret => .ret
  | .prefixCb => .prefixCb
  | .callA16 n => .call n
  | .popDe => .pop .de
  | .pushDe => .push .de
  | .ldhIndA8A n => .ldhIndImmA n
  | .popHl => .pop .hl
  | .ldIndCA => .ldIndCA
  | .pushHl => .push .hl
  | .ldIndA16A n => .ldIndAbsA n
  | .popAf => .pop .af
  | .pushAf => .push .af
  | .ldSpHl => .ldSpHl
  | .cpD8 n => .cpImm n
  | .rlB => .cb (.rl .b)
  | .rlC => .cb (.rl .c)
  | .rlD => .cb (.rl .d)
  | .rlE => .cb (.rl .e)
  | .rlH => .cb (.rl .h)
  | .rlL => .cb (.rl .l)
  | .rlA => .cb (.rl .a)
  | .bit0B => .cb (.bit 0 .b)
  | .bit0C => .cb (.bit 0 .c)
  | .bit0D => .cb (.bit 0 .d)
  | .bit0E => .cb (.bit 0 .e)
  | .bit0H => .cb (.bit 0 .h)
  | .bit0L => .cb (.bit 0 .l)
  | .bit0A => .cb (.bit 0 .a)
  | .bit1B => .cb (.bit 1 .b)
  | .bit1C => .cb (.bit 1 .c)
  | .bit1D => .cb (.bit 1 .d)
  | .bit1E => .cb (.bit 1 .e)
  | .bit1H => .cb (.bit 1 .h)
  | .bit1L => .cb (.bit 1 .l)
  | .bit1A => .cb (.bit 1 .a)
  | .bit2B => .cb (.bit 2 .b)
  | .bit2C => .cb (.bit 2 .c)
  | .bit2D => .cb (.bit 2 .d)
  | .bit2E => .cb (.bit 2 .e)
  | .bit2H => .cb (.bit 2 .h)
  | .bit2L => .cb (.bit 2 .l)
  | .bit2A => .cb (.bit 2 .a)
  | .bit3B => .cb (.bit 3 .b)
  | .bit3C => .cb (.bit 3 .c)
  | .bit3D => .cb (.bit 3 .d)
  | .bit3E => .cb (.bit 3 .e)
  | .bit3H => .cb (.bit 3 .h)
  | .bit3L => .cb (.bit 3 .l)
  | .bit3A => .cb (.bit 3 .a)
  | .bit4B => .cb (.bit 4 .b)
  | .bit4C => .cb (.bit 4 .c)
  | .bit4D => .cb (.bit 4 .d)
  | .bit4E => .cb (.bit 4 .e)
  | .bit4H => .cb (.bit 4 .h)
  | .bit4L => .cb (.bit 4 .l)
  | .bit4A => .cb (.bit 4 .a)
  | .bit5B => .cb (.bit 5 .b)
  | .bit5C => .cb (.bit 5 .c)
  | .bit5D => .cb (.bit 5 .d)
  | .bit5E => .cb (.bit 5 .e)
  | .bit5H => .cb (.bit 5 .h)
  | .bit5L => .cb (.bit 5 .l)
  | .bit5A => .cb (.bit 5 .a)
  | .bit6B => .cb (.bit 6 .b)
  | .bit6C => .cb (.bit 6 .c)
  | .bit6D => .cb (.bit 6 .d)
  | .bit6E => .cb (.bit 6 .e)
  | .bit6H => .cb (.bit 6 .h)
  | .bit6L => .cb (.bit 6 .l)
  | .bit6A => .cb (.bit 6 .a)
  | .bit7B => .cb (.bit 7 .b)
  | .bit7C => .cb (.bit 7 .c)
  | .bit7D => .cb (.bit 7 .d)
  | .bit7E => .cb (.bit 7 .e)
  | .bit7H => .cb (.bit 7 .h)
  | .bit7L => .cb (.bit 7 .l)
  | .bit7A => .cb (.bit 7 .a)

/-- A second byte of format CB from its pattern (R81): `00010rrr`, `01bbbrrr`. -/
def CbOp.encode : CbOp → Byte
  | .rl r => 0b00010#5 ++ r.code
  | .bit b r => 0b01#2 ++ BitVec.ofFin (w := 3) b ++ r.code

/-- The bytes of a form: its pattern (R81), then its operand bytes, low byte first (R53, R86). -/
def Form.encode : Form → List Byte
  | .nop => [0b00000000]
  | .ldRegReg dst src => [0b01#2 ++ dst.code ++ src.code]
  | .ldRegIndHl dst => [0b01#2 ++ dst.code ++ 0b110#3]
  | .ldRegImm dst n => [0b00#2 ++ dst.code ++ 0b110#3, n]
  | .ldAIndBc => [0b00001010]
  | .ldAIndDe => [0b00011010]
  | .ldPairImm p n => [0b00#2 ++ p.code ++ 0b0001#4, loByte n, hiByte n]
  | .ldSpHl => [0b11111001]
  | .ldhIndImmA n => [0b11100000, n]
  | .ldIndCA => [0b11100010]
  | .ldIndHlIncA => [0b00100010]
  | .ldIndHlDecA => [0b00110010]
  | .ldIndAbsA n => [0b11101010, loByte n, hiByte n]
  | .incReg r => [0b00#2 ++ r.code ++ 0b100#3]
  | .decReg r => [0b00#2 ++ r.code ++ 0b101#3]
  | .incPair p => [0b00#2 ++ p.code ++ 0b0011#4]
  | .decPair p => [0b00#2 ++ p.code ++ 0b1011#4]
  | .xorA => [0b10101111]
  | .cpReg r => [0b10111#5 ++ r.code]
  | .cpIndHl => [0b10111110]
  | .cpImm n => [0b11111110, n]
  | .rla => [0b00010111]
  | .jr e => [0b00011000, e]
  | .jrCond cc e => [0b001#3 ++ cc.code ++ 0b000#3, e]
  | .call n => [0b11001101, loByte n, hiByte n]
  | .ret => [0b11001001]
  | .push q => [0b11#2 ++ q.code ++ 0b0101#4]
  | .pop q => [0b11#2 ++ q.code ++ 0b0001#4]
  | .prefixCb => [0b11001011]
  | .cb o => [0b11001011, o.encode]

/-- The bytes of an instruction, in address order (R80, R81). -/
def encode (i : Instr) : List Byte := i.form.encode

/-- The number of bytes of the instruction's encoding (R80): 1, 2 or 3. A CB pair's 2 bytes are counted at its inner
instruction; the row of `PREFIX CB` is its one byte (8 bits in spec/opcode_table.json). -/
def Instr.length (i : Instr) : Nat := (encode i).length

end Sys2Proof
end

