-- ==== Sys2Proof/Machine/Cb.lean ====
section
/-! DEFINITION. The CB prefix, the register rotate and the bit test (spec/42_cb_prefixed.md). -/

namespace Sys2Proof.Machine

/-- `RL r` (R172). -/
def rotateReg (r : Reg8) (s : Running) : Except Fault Running :=
  let (res, cout) := rotL (s.get8 r) s.flags.c
  .ok ((s.set8 r res).setFlags (rlFlags res cout))

/-- `BIT b,r` (R171). -/
def bitTest (b : Fin 8) (r : Reg8) (s : Running) : Except Fault Running :=
  .ok (s.setFlags (bitFlags ((s.get8 r).getLsbD b.val) s.flags.c))

/-- `RL B`, CB 10 (R172). -/
def execRlB (s : State) : Out := run (rotateReg .b) s

/-- `RL C`, CB 11 (R172). -/
def execRlC (s : State) : Out := run (rotateReg .c) s

/-- `RL D`, CB 12 (R172). -/
def execRlD (s : State) : Out := run (rotateReg .d) s

/-- `RL E`, CB 13 (R172). -/
def execRlE (s : State) : Out := run (rotateReg .e) s

/-- `RL H`, CB 14 (R172). -/
def execRlH (s : State) : Out := run (rotateReg .h) s

/-- `RL L`, CB 15 (R172). -/
def execRlL (s : State) : Out := run (rotateReg .l) s

/-- `RL A`, CB 17 (R172). -/
def execRlA (s : State) : Out := run (rotateReg .a) s

/-- `BIT 0,B`, CB 40 (R171). -/
def execBit0B (s : State) : Out := run (bitTest 0 .b) s

/-- `BIT 0,C`, CB 41 (R171). -/
def execBit0C (s : State) : Out := run (bitTest 0 .c) s

/-- `BIT 0,D`, CB 42 (R171). -/
def execBit0D (s : State) : Out := run (bitTest 0 .d) s

/-- `BIT 0,E`, CB 43 (R171). -/
def execBit0E (s : State) : Out := run (bitTest 0 .e) s

/-- `BIT 0,H`, CB 44 (R171). -/
def execBit0H (s : State) : Out := run (bitTest 0 .h) s

/-- `BIT 0,L`, CB 45 (R171). -/
def execBit0L (s : State) : Out := run (bitTest 0 .l) s

/-- `BIT 0,A`, CB 47 (R171). -/
def execBit0A (s : State) : Out := run (bitTest 0 .a) s

/-- `BIT 1,B`, CB 48 (R171). -/
def execBit1B (s : State) : Out := run (bitTest 1 .b) s

/-- `BIT 1,C`, CB 49 (R171). -/
def execBit1C (s : State) : Out := run (bitTest 1 .c) s

/-- `BIT 1,D`, CB 4A (R171). -/
def execBit1D (s : State) : Out := run (bitTest 1 .d) s

/-- `BIT 1,E`, CB 4B (R171). -/
def execBit1E (s : State) : Out := run (bitTest 1 .e) s

/-- `BIT 1,H`, CB 4C (R171). -/
def execBit1H (s : State) : Out := run (bitTest 1 .h) s

/-- `BIT 1,L`, CB 4D (R171). -/
def execBit1L (s : State) : Out := run (bitTest 1 .l) s

/-- `BIT 1,A`, CB 4F (R171). -/
def execBit1A (s : State) : Out := run (bitTest 1 .a) s

/-- `BIT 2,B`, CB 50 (R171). -/
def execBit2B (s : State) : Out := run (bitTest 2 .b) s

/-- `BIT 2,C`, CB 51 (R171). -/
def execBit2C (s : State) : Out := run (bitTest 2 .c) s

/-- `BIT 2,D`, CB 52 (R171). -/
def execBit2D (s : State) : Out := run (bitTest 2 .d) s

/-- `BIT 2,E`, CB 53 (R171). -/
def execBit2E (s : State) : Out := run (bitTest 2 .e) s

/-- `BIT 2,H`, CB 54 (R171). -/
def execBit2H (s : State) : Out := run (bitTest 2 .h) s

/-- `BIT 2,L`, CB 55 (R171). -/
def execBit2L (s : State) : Out := run (bitTest 2 .l) s

/-- `BIT 2,A`, CB 57 (R171). -/
def execBit2A (s : State) : Out := run (bitTest 2 .a) s

/-- `BIT 3,B`, CB 58 (R171). -/
def execBit3B (s : State) : Out := run (bitTest 3 .b) s

/-- `BIT 3,C`, CB 59 (R171). -/
def execBit3C (s : State) : Out := run (bitTest 3 .c) s

/-- `BIT 3,D`, CB 5A (R171). -/
def execBit3D (s : State) : Out := run (bitTest 3 .d) s

/-- `BIT 3,E`, CB 5B (R171). -/
def execBit3E (s : State) : Out := run (bitTest 3 .e) s

/-- `BIT 3,H`, CB 5C (R171). -/
def execBit3H (s : State) : Out := run (bitTest 3 .h) s

/-- `BIT 3,L`, CB 5D (R171). -/
def execBit3L (s : State) : Out := run (bitTest 3 .l) s

/-- `BIT 3,A`, CB 5F (R171). -/
def execBit3A (s : State) : Out := run (bitTest 3 .a) s

/-- `BIT 4,B`, CB 60 (R171). -/
def execBit4B (s : State) : Out := run (bitTest 4 .b) s

/-- `BIT 4,C`, CB 61 (R171). -/
def execBit4C (s : State) : Out := run (bitTest 4 .c) s

/-- `BIT 4,D`, CB 62 (R171). -/
def execBit4D (s : State) : Out := run (bitTest 4 .d) s

/-- `BIT 4,E`, CB 63 (R171). -/
def execBit4E (s : State) : Out := run (bitTest 4 .e) s

/-- `BIT 4,H`, CB 64 (R171). -/
def execBit4H (s : State) : Out := run (bitTest 4 .h) s

/-- `BIT 4,L`, CB 65 (R171). -/
def execBit4L (s : State) : Out := run (bitTest 4 .l) s

/-- `BIT 4,A`, CB 67 (R171). -/
def execBit4A (s : State) : Out := run (bitTest 4 .a) s

/-- `BIT 5,B`, CB 68 (R171). -/
def execBit5B (s : State) : Out := run (bitTest 5 .b) s

/-- `BIT 5,C`, CB 69 (R171). -/
def execBit5C (s : State) : Out := run (bitTest 5 .c) s

/-- `BIT 5,D`, CB 6A (R171). -/
def execBit5D (s : State) : Out := run (bitTest 5 .d) s

/-- `BIT 5,E`, CB 6B (R171). -/
def execBit5E (s : State) : Out := run (bitTest 5 .e) s

/-- `BIT 5,H`, CB 6C (R171). -/
def execBit5H (s : State) : Out := run (bitTest 5 .h) s

/-- `BIT 5,L`, CB 6D (R171). -/
def execBit5L (s : State) : Out := run (bitTest 5 .l) s

/-- `BIT 5,A`, CB 6F (R171). -/
def execBit5A (s : State) : Out := run (bitTest 5 .a) s

/-- `BIT 6,B`, CB 70 (R171). -/
def execBit6B (s : State) : Out := run (bitTest 6 .b) s

/-- `BIT 6,C`, CB 71 (R171). -/
def execBit6C (s : State) : Out := run (bitTest 6 .c) s

/-- `BIT 6,D`, CB 72 (R171). -/
def execBit6D (s : State) : Out := run (bitTest 6 .d) s

/-- `BIT 6,E`, CB 73 (R171). -/
def execBit6E (s : State) : Out := run (bitTest 6 .e) s

/-- `BIT 6,H`, CB 74 (R171). -/
def execBit6H (s : State) : Out := run (bitTest 6 .h) s

/-- `BIT 6,L`, CB 75 (R171). -/
def execBit6L (s : State) : Out := run (bitTest 6 .l) s

/-- `BIT 6,A`, CB 77 (R171). -/
def execBit6A (s : State) : Out := run (bitTest 6 .a) s

/-- `BIT 7,B`, CB 78 (R171). -/
def execBit7B (s : State) : Out := run (bitTest 7 .b) s

/-- `BIT 7,C`, CB 79 (R171). -/
def execBit7C (s : State) : Out := run (bitTest 7 .c) s

/-- `BIT 7,D`, CB 7A (R171). -/
def execBit7D (s : State) : Out := run (bitTest 7 .d) s

/-- `BIT 7,E`, CB 7B (R171). -/
def execBit7E (s : State) : Out := run (bitTest 7 .e) s

/-- `BIT 7,H`, CB 7C (R171). -/
def execBit7H (s : State) : Out := run (bitTest 7 .h) s

/-- `BIT 7,L`, CB 7D (R171). -/
def execBit7L (s : State) : Out := run (bitTest 7 .l) s

/-- `BIT 7,A`, CB 7F (R171). -/
def execBit7A (s : State) : Out := run (bitTest 7 .a) s

/-- `execute(inner)` of R170: the meaning of a CB operation's own row. -/
def execCbOp (o : CbOp) (s : State) : Out :=
  match o with
  | .rl .b => execRlB s
  | .rl .c => execRlC s
  | .rl .d => execRlD s
  | .rl .e => execRlE s
  | .rl .h => execRlH s
  | .rl .l => execRlL s
  | .rl .a => execRlA s
  | .bit 0 .b => execBit0B s
  | .bit 0 .c => execBit0C s
  | .bit 0 .d => execBit0D s
  | .bit 0 .e => execBit0E s
  | .bit 0 .h => execBit0H s
  | .bit 0 .l => execBit0L s
  | .bit 0 .a => execBit0A s
  | .bit 1 .b => execBit1B s
  | .bit 1 .c => execBit1C s
  | .bit 1 .d => execBit1D s
  | .bit 1 .e => execBit1E s
  | .bit 1 .h => execBit1H s
  | .bit 1 .l => execBit1L s
  | .bit 1 .a => execBit1A s
  | .bit 2 .b => execBit2B s
  | .bit 2 .c => execBit2C s
  | .bit 2 .d => execBit2D s
  | .bit 2 .e => execBit2E s
  | .bit 2 .h => execBit2H s
  | .bit 2 .l => execBit2L s
  | .bit 2 .a => execBit2A s
  | .bit 3 .b => execBit3B s
  | .bit 3 .c => execBit3C s
  | .bit 3 .d => execBit3D s
  | .bit 3 .e => execBit3E s
  | .bit 3 .h => execBit3H s
  | .bit 3 .l => execBit3L s
  | .bit 3 .a => execBit3A s
  | .bit 4 .b => execBit4B s
  | .bit 4 .c => execBit4C s
  | .bit 4 .d => execBit4D s
  | .bit 4 .e => execBit4E s
  | .bit 4 .h => execBit4H s
  | .bit 4 .l => execBit4L s
  | .bit 4 .a => execBit4A s
  | .bit 5 .b => execBit5B s
  | .bit 5 .c => execBit5C s
  | .bit 5 .d => execBit5D s
  | .bit 5 .e => execBit5E s
  | .bit 5 .h => execBit5H s
  | .bit 5 .l => execBit5L s
  | .bit 5 .a => execBit5A s
  | .bit 6 .b => execBit6B s
  | .bit 6 .c => execBit6C s
  | .bit 6 .d => execBit6D s
  | .bit 6 .e => execBit6E s
  | .bit 6 .h => execBit6H s
  | .bit 6 .l => execBit6L s
  | .bit 6 .a => execBit6A s
  | .bit 7 .b => execBit7B s
  | .bit 7 .c => execBit7C s
  | .bit 7 .d => execBit7D s
  | .bit 7 .e => execBit7E s
  | .bit 7 .h => execBit7H s
  | .bit 7 .l => execBit7L s
  | .bit 7 .a => execBit7A s

/-- `PREFIX CB`, CB (R170): the second byte is fetched when the prefix executes, looked up in the CB table, and the
inner instruction executed, all in the same step. -/
def execPrefixCb (s : State) : Out :=
  match s.status with
  | .faulted f => .fault f
  | .running m =>
    match fetch8 m with
    | .error f => finish (.error f)
    | .ok (op2, m₁) =>
      match decodeCbOp op2 with
      | none => finish (raise (.decodeErrorCb op2))
      | some o => execCbOp o (.running m₁)

end Sys2Proof.Machine
end

