-- ==== Sys2Proof/Machine/Control.lean ====
section
/-! DEFINITION. Relative jumps, call and return (spec/43_control_stack.md R190 to R195, R199). -/

namespace Sys2Proof.Machine

/-- `JR e8` (R191): pc is already the address of the next instruction. -/
def jump (e : Byte) (s : Running) : Except Fault Running := .ok { s with pc := s.pc + sext16 e }

/-- `JR cc,e8` (R192). -/
def jumpIf (cc : Cond) (e : Byte) (s : Running) : Except Fault Running :=
  if condHolds cc s.flags then jump e s else .ok s

/-- `CALL a16` (R194): pc is already the return address. -/
def call (n : Word) (s : Running) : Except Fault Running :=
  match push16 s.pc s with
  | .ok s₁ => .ok { s₁ with pc := n }
  | .error f => .error f

/-- `RET` (R195). -/
def ret (s : Running) : Except Fault Running :=
  match pop16 s with
  | .ok (w, s₁) => .ok { s₁ with pc := w }
  | .error f => .error f

/-- `JR e8`, 18 (R191). -/
def execJrE8 (e : Byte) (s : State) : Out := run (jump e) s

/-- `JR NZ,e8`, 20 (R192). -/
def execJrNzE8 (e : Byte) (s : State) : Out := run (jumpIf .nz e) s

/-- `JR Z,e8`, 28 (R192). -/
def execJrZE8 (e : Byte) (s : State) : Out := run (jumpIf .z e) s

/-- `JR NC,e8`, 30 (R192). -/
def execJrNcE8 (e : Byte) (s : State) : Out := run (jumpIf .nc e) s

/-- `JR C,e8`, 38 (R192). -/
def execJrCE8 (e : Byte) (s : State) : Out := run (jumpIf .c e) s

/-- `RET`, C9 (R195). -/
def execRet (s : State) : Out := run ret s

/-- `CALL a16`, CD (R194). -/
def execCallA16 (n : Word) (s : State) : Out := run (call n) s

end Sys2Proof.Machine
end

