-- ==== Sys2Proof/Machine/Load.lean ====
section
/-! DEFINITION. NOP and the load family (spec/40_nop_load.md): each instruction is one Load (R111) with its
`Src` and `Dst`. The opcode and operand bytes have been fetched: pc is past them (R20). -/

namespace Sys2Proof.Machine

/-- `NOP`, 00 (R110). -/
def execNop (s : State) : Out := run .ok s

/-- `LD BC,d16`, 01 (R117). -/
def execLdBcD16 (n : Word) (s : State) : Out := run (load (.reg16 .bc) (.imm16 n)) s

/-- `LD B,d8`, 06 (R113). -/
def execLdBD8 (n : Byte) (s : State) : Out := run (load (.reg8 .b) (.imm8 n)) s

/-- `LD A,(BC)`, 0A (R115). -/
def execLdAIndBc (s : State) : Out := run (load (.reg8 .a) (.indirect .bc)) s

/-- `LD C,d8`, 0E (R113). -/
def execLdCD8 (n : Byte) (s : State) : Out := run (load (.reg8 .c) (.imm8 n)) s

/-- `LD DE,d16`, 11 (R117). -/
def execLdDeD16 (n : Word) (s : State) : Out := run (load (.reg16 .de) (.imm16 n)) s

/-- `LD D,d8`, 16 (R113). -/
def execLdDD8 (n : Byte) (s : State) : Out := run (load (.reg8 .d) (.imm8 n)) s

/-- `LD A,(DE)`, 1A (R116). -/
def execLdAIndDe (s : State) : Out := run (load (.reg8 .a) (.indirect .de)) s

/-- `LD E,d8`, 1E (R113). -/
def execLdED8 (n : Byte) (s : State) : Out := run (load (.reg8 .e) (.imm8 n)) s

/-- `LD HL,d16`, 21 (R117). -/
def execLdHlD16 (n : Word) (s : State) : Out := run (load (.reg16 .hl) (.imm16 n)) s

/-- `LD (HL+),A`, 22 (R121). -/
def execLdIndHlIncA (s : State) : Out := run (load .indirectHlInc (.reg8 .a)) s

/-- `LD H,d8`, 26 (R113). -/
def execLdHD8 (n : Byte) (s : State) : Out := run (load (.reg8 .h) (.imm8 n)) s

/-- `LD L,d8`, 2E (R113). -/
def execLdLD8 (n : Byte) (s : State) : Out := run (load (.reg8 .l) (.imm8 n)) s

/-- `LD SP,d16`, 31 (R117). -/
def execLdSpD16 (n : Word) (s : State) : Out := run (load (.reg16 .sp) (.imm16 n)) s

/-- `LD (HL-),A`, 32 (R122). -/
def execLdIndHlDecA (s : State) : Out := run (load .indirectHlDec (.reg8 .a)) s

/-- `LD A,d8`, 3E (R113). -/
def execLdAD8 (n : Byte) (s : State) : Out := run (load (.reg8 .a) (.imm8 n)) s

/-- `LD B,B`, 40 (R112). -/
def execLdBB (s : State) : Out := run (load (.reg8 .b) (.reg8 .b)) s

/-- `LD B,C`, 41 (R112). -/
def execLdBC (s : State) : Out := run (load (.reg8 .b) (.reg8 .c)) s

/-- `LD B,D`, 42 (R112). -/
def execLdBD (s : State) : Out := run (load (.reg8 .b) (.reg8 .d)) s

/-- `LD B,E`, 43 (R112). -/
def execLdBE (s : State) : Out := run (load (.reg8 .b) (.reg8 .e)) s

/-- `LD B,H`, 44 (R112). -/
def execLdBH (s : State) : Out := run (load (.reg8 .b) (.reg8 .h)) s

/-- `LD B,L`, 45 (R112). -/
def execLdBL (s : State) : Out := run (load (.reg8 .b) (.reg8 .l)) s

/-- `LD B,(HL)`, 46 (R114). -/
def execLdBIndHl (s : State) : Out := run (load (.reg8 .b) (.indirect .hl)) s

/-- `LD B,A`, 47 (R112). -/
def execLdBA (s : State) : Out := run (load (.reg8 .b) (.reg8 .a)) s

/-- `LD C,B`, 48 (R112). -/
def execLdCB (s : State) : Out := run (load (.reg8 .c) (.reg8 .b)) s

/-- `LD C,C`, 49 (R112). -/
def execLdCC (s : State) : Out := run (load (.reg8 .c) (.reg8 .c)) s

/-- `LD C,D`, 4A (R112). -/
def execLdCD (s : State) : Out := run (load (.reg8 .c) (.reg8 .d)) s

/-- `LD C,E`, 4B (R112). -/
def execLdCE (s : State) : Out := run (load (.reg8 .c) (.reg8 .e)) s

/-- `LD C,H`, 4C (R112). -/
def execLdCH (s : State) : Out := run (load (.reg8 .c) (.reg8 .h)) s

/-- `LD C,L`, 4D (R112). -/
def execLdCL (s : State) : Out := run (load (.reg8 .c) (.reg8 .l)) s

/-- `LD C,(HL)`, 4E (R114). -/
def execLdCIndHl (s : State) : Out := run (load (.reg8 .c) (.indirect .hl)) s

/-- `LD C,A`, 4F (R112). -/
def execLdCA (s : State) : Out := run (load (.reg8 .c) (.reg8 .a)) s

/-- `LD D,B`, 50 (R112). -/
def execLdDB (s : State) : Out := run (load (.reg8 .d) (.reg8 .b)) s

/-- `LD D,C`, 51 (R112). -/
def execLdDC (s : State) : Out := run (load (.reg8 .d) (.reg8 .c)) s

/-- `LD D,D`, 52 (R112). -/
def execLdDD (s : State) : Out := run (load (.reg8 .d) (.reg8 .d)) s

/-- `LD D,E`, 53 (R112). -/
def execLdDE (s : State) : Out := run (load (.reg8 .d) (.reg8 .e)) s

/-- `LD D,H`, 54 (R112). -/
def execLdDH (s : State) : Out := run (load (.reg8 .d) (.reg8 .h)) s

/-- `LD D,L`, 55 (R112). -/
def execLdDL (s : State) : Out := run (load (.reg8 .d) (.reg8 .l)) s

/-- `LD D,(HL)`, 56 (R114). -/
def execLdDIndHl (s : State) : Out := run (load (.reg8 .d) (.indirect .hl)) s

/-- `LD D,A`, 57 (R112). -/
def execLdDA (s : State) : Out := run (load (.reg8 .d) (.reg8 .a)) s

/-- `LD E,B`, 58 (R112). -/
def execLdEB (s : State) : Out := run (load (.reg8 .e) (.reg8 .b)) s

/-- `LD E,C`, 59 (R112). -/
def execLdEC (s : State) : Out := run (load (.reg8 .e) (.reg8 .c)) s

/-- `LD E,D`, 5A (R112). -/
def execLdED (s : State) : Out := run (load (.reg8 .e) (.reg8 .d)) s

/-- `LD E,E`, 5B (R112). -/
def execLdEE (s : State) : Out := run (load (.reg8 .e) (.reg8 .e)) s

/-- `LD E,H`, 5C (R112). -/
def execLdEH (s : State) : Out := run (load (.reg8 .e) (.reg8 .h)) s

/-- `LD E,L`, 5D (R112). -/
def execLdEL (s : State) : Out := run (load (.reg8 .e) (.reg8 .l)) s

/-- `LD E,(HL)`, 5E (R114). -/
def execLdEIndHl (s : State) : Out := run (load (.reg8 .e) (.indirect .hl)) s

/-- `LD E,A`, 5F (R112). -/
def execLdEA (s : State) : Out := run (load (.reg8 .e) (.reg8 .a)) s

/-- `LD H,B`, 60 (R112). -/
def execLdHB (s : State) : Out := run (load (.reg8 .h) (.reg8 .b)) s

/-- `LD H,C`, 61 (R112). -/
def execLdHC (s : State) : Out := run (load (.reg8 .h) (.reg8 .c)) s

/-- `LD H,D`, 62 (R112). -/
def execLdHD (s : State) : Out := run (load (.reg8 .h) (.reg8 .d)) s

/-- `LD H,E`, 63 (R112). -/
def execLdHE (s : State) : Out := run (load (.reg8 .h) (.reg8 .e)) s

/-- `LD H,H`, 64 (R112). -/
def execLdHH (s : State) : Out := run (load (.reg8 .h) (.reg8 .h)) s

/-- `LD H,L`, 65 (R112). -/
def execLdHL (s : State) : Out := run (load (.reg8 .h) (.reg8 .l)) s

/-- `LD H,(HL)`, 66 (R114). -/
def execLdHIndHl (s : State) : Out := run (load (.reg8 .h) (.indirect .hl)) s

/-- `LD H,A`, 67 (R112). -/
def execLdHA (s : State) : Out := run (load (.reg8 .h) (.reg8 .a)) s

/-- `LD L,B`, 68 (R112). -/
def execLdLB (s : State) : Out := run (load (.reg8 .l) (.reg8 .b)) s

/-- `LD L,C`, 69 (R112). -/
def execLdLC (s : State) : Out := run (load (.reg8 .l) (.reg8 .c)) s

/-- `LD L,D`, 6A (R112). -/
def execLdLD (s : State) : Out := run (load (.reg8 .l) (.reg8 .d)) s

/-- `LD L,E`, 6B (R112). -/
def execLdLE (s : State) : Out := run (load (.reg8 .l) (.reg8 .e)) s

/-- `LD L,H`, 6C (R112). -/
def execLdLH (s : State) : Out := run (load (.reg8 .l) (.reg8 .h)) s

/-- `LD L,L`, 6D (R112). -/
def execLdLL (s : State) : Out := run (load (.reg8 .l) (.reg8 .l)) s

/-- `LD L,(HL)`, 6E (R114). -/
def execLdLIndHl (s : State) : Out := run (load (.reg8 .l) (.indirect .hl)) s

/-- `LD L,A`, 6F (R112). -/
def execLdLA (s : State) : Out := run (load (.reg8 .l) (.reg8 .a)) s

/-- `LD A,B`, 78 (R112). -/
def execLdAB (s : State) : Out := run (load (.reg8 .a) (.reg8 .b)) s

/-- `LD A,C`, 79 (R112). -/
def execLdAC (s : State) : Out := run (load (.reg8 .a) (.reg8 .c)) s

/-- `LD A,D`, 7A (R112). -/
def execLdAD (s : State) : Out := run (load (.reg8 .a) (.reg8 .d)) s

/-- `LD A,E`, 7B (R112). -/
def execLdAE (s : State) : Out := run (load (.reg8 .a) (.reg8 .e)) s

/-- `LD A,H`, 7C (R112). -/
def execLdAH (s : State) : Out := run (load (.reg8 .a) (.reg8 .h)) s

/-- `LD A,L`, 7D (R112). -/
def execLdAL (s : State) : Out := run (load (.reg8 .a) (.reg8 .l)) s

/-- `LD A,(HL)`, 7E (R114). -/
def execLdAIndHl (s : State) : Out := run (load (.reg8 .a) (.indirect .hl)) s

/-- `LD A,A`, 7F (R112). -/
def execLdAA (s : State) : Out := run (load (.reg8 .a) (.reg8 .a)) s

/-- `LDH (a8),A`, E0 (R119). -/
def execLdhIndA8A (n : Byte) (s : State) : Out := run (load (.pagedImm n) (.reg8 .a)) s

/-- `LD (C),A`, E2 (R120). -/
def execLdIndCA (s : State) : Out := run (load .pagedC (.reg8 .a)) s

/-- `LD (a16),A`, EA (R123). -/
def execLdIndA16A (n : Word) (s : State) : Out := run (load (.abs n) (.reg8 .a)) s

/-- `LD SP,HL`, F9 (R118). -/
def execLdSpHl (s : State) : Out := run (load (.reg16 .sp) (.reg16 .hl)) s

end Sys2Proof.Machine
end

