-- ==== Sys2Proof/Machine/Stack.lean ====
section
/-! DEFINITION. Push and pop (spec/43_control_stack.md R196 to R198). -/

namespace Sys2Proof.Machine

/-- `PUSH rr` (R196). -/
def push (p : Reg16) (s : Running) : Except Fault Running := push16 (s.get16 p) s

/-- `POP rr` (R197, R198): a pop into AF masks the low nibble of F, as every write of F does. -/
def pop (p : Reg16) (s : Running) : Except Fault Running :=
  match pop16 s with
  | .ok (w, s₁) => .ok (s₁.set16 p w)
  | .error f => .error f

/-- `POP BC`, C1 (R197). -/
def execPopBc (s : State) : Out := run (pop .bc) s

/-- `PUSH BC`, C5 (R196). -/
def execPushBc (s : State) : Out := run (push .bc) s

/-- `POP DE`, D1 (R197). -/
def execPopDe (s : State) : Out := run (pop .de) s

/-- `PUSH DE`, D5 (R196). -/
def execPushDe (s : State) : Out := run (push .de) s

/-- `POP HL`, E1 (R197). -/
def execPopHl (s : State) : Out := run (pop .hl) s

/-- `PUSH HL`, E5 (R196). -/
def execPushHl (s : State) : Out := run (push .hl) s

/-- `POP AF`, F1 (R198). -/
def execPopAf (s : State) : Out := run (pop .af) s

/-- `PUSH AF`, F5 (R196). -/
def execPushAf (s : State) : Out := run (push .af) s

end Sys2Proof.Machine
end

