-- ==== Sys2Proof/Machine/Fetch.lean ====
section
/-! DEFINITION. Fetching and decoding the instruction at pc (spec/30_encoding.md R82, R83, R86, R90, R93), and placing
bytes from outside the machine where the fetch will read them. -/

namespace Sys2Proof.Machine

/-- Steps 1 and 2 of R93: the opcode is fetched, then looked up (a byte outside the admitted set raises before any
operand byte is fetched, R90), then its operand bytes are fetched, low byte first. The state is the one the
instruction executes in: pc is past every byte fetched (R20). -/
def fetchDecode (s : Running) : Except Fault (Instr × Running) :=
  match fetch8 s with
  | .error f => .error f
  | .ok (op, s₁) =>
    match primary op with
    | none => raise (.decodeError op)
    | some (.op i) => .ok (i, s₁)
    | some (.d8 mk) =>
      match fetch8 s₁ with
      | .ok (n, s₂) => .ok (mk n, s₂)
      | .error f => .error f
    | some (.d16 mk) =>
      match fetch16 s₁ with
      | .ok (n, s₂) => .ok (mk n, s₂)
      | .error f => .error f

/-- A blob with the byte `v` at index `i`, lengthened with zero bytes where it is too short. -/
def blobWith (blob : List Byte) (i : Nat) (v : Byte) : List Byte :=
  if i < blob.length then blob.set i v else blob ++ List.replicate (i - blob.length) 0 ++ [v]

/-- The state with the byte `v` where a read of `addr` finds it, placed from outside the machine (no bus write: the
ROM images are set as they are at construction). An unmapped address has no place for a byte. -/
def Running.loadByte (s : Running) (addr : Word) (v : Byte) : Running :=
  match region addr.toNat with
  | .bootRom => { s with cfg := { s.cfg with boot := blobWith s.cfg.boot addr.toNat v } }
  | .cartRom => { s with cfg := { s.cfg with cart := blobWith s.cfg.cart (addr.toNat - s.cfg.cartRebase.val) v } }
  | .vram => s.arrayWrite s.cfg.vramFill addr v
  | .wram => s.arrayWrite s.cfg.wramFill addr v
  | .ppuControl => { s with control := v }
  | .ppuScrollY => { s with scrollY := v }
  | .ppuLy => { s with ly := v }
  | .io => s.arrayWrite s.cfg.ioFill addr v
  | .hram => s.arrayWrite s.cfg.hramFill addr v
  | .unmapped => s

/-- The state with the three bytes of a table word (`tableBytes`) at pc, pc + 1 and pc + 2. -/
def Running.loadWord (s : Running) (nbits w : Nat) : Running :=
  let (b₀, b₁, b₂) := tableBytes nbits w
  ((s.loadByte s.pc b₀).loadByte (s.pc + 1) b₁).loadByte (s.pc + 2) b₂

end Sys2Proof.Machine
end

