-- ==== Sys2Proof/Machine/Step.lean ====
section
/-! DEFINITION. The step (spec/60_exceptions.md R220, spec/30_encoding.md R93), what a fault leaves (R222, R223), the
driver's part between two steps (spec/10_state.md R29), and the placing of one instruction from outside the machine. -/

namespace Sys2Proof.Machine

/-- `step()`: one whole fetch-decode-execute cycle of a running machine (R93, R220). A faulted machine has no step
(R222). DESIGN CHOICE (safe, log entry 4): its step answers the fault it stopped with. -/
def step (s : State) : Host.Outcome State Fault Refusal :=
  match s.status with
  | .faulted f => .fault f
  | .running m =>
    match fetchDecode m with
    | .error f => .fault f
    | .ok (i, m₁) => exec i (.running m₁)

/-- The machine the driver holds after calling `step()` once: the next state, or the faulted state, which is the fault
and nothing else (R222, R223). -/
def afterStep (s : State) : State :=
  match step s with
  | .next t => t
  | .fault f => .faulted f
  | .refused _ => s

/-- What the driver of PPU.ly may do to the machine between two steps (R29). A faulted machine has no such byte. -/
def State.driveLy (v : Byte) (s : State) : State :=
  match s.status with
  | .running m => .running (m.driveLy v)
  | .faulted f => .faulted f

/-- A run in which the driver acts before each step, with the bytes of the list (R29, R236). With LY_DRIVER = static
every list of a length gives the run of that many steps. -/
def drivenRun (s : State) (vs : List Byte) : State := vs.foldl (fun u v => afterStep (u.driveLy v)) s

/-- `s` with the instruction of a table word stored where the next step fetches it: at pc (log entry 1). A faulted
machine has no pc and fetches nothing. -/
def State.withFetchWord (s : State) (nbits w : Nat) : State :=
  match s.status with
  | .running m => .running (m.loadWord nbits w)
  | .faulted f => .faulted f

end Sys2Proof.Machine
end

