-- ==== Sys2Proof/Machine/Trace.lean ====
section
/-! DEFINITION. What the driver sees between steps (spec/60_exceptions.md R236, spec/30_encoding.md R93, R94): the
Instruction a step reports with its metadata, and the read-only inspection of a running machine. Nothing here is
state and no instruction reads it. -/

namespace Sys2Proof.Machine

/-- The decode metadata of an Instruction (R94). -/
structure Metadata where
  opcode : Byte
  length : Nat
  cycles : Nat
  deriving DecidableEq, Repr

/-- The opcode byte of R94: the first byte, or the second byte of a CB pair (decision D25). -/
def opcodeByte (i : Instr) : Byte :=
  match i.form with
  | .cb o => o.encode
  | x => x.encode.headD 0

/-- R94: the byte length is R80's, but for a CB instruction either 2 or 1: for the inner instruction of a pair (decision
D25) and for `PREFIX CB` itself (conflict C9), each a free value; and the cycle duration has no value in the source
(R266; free values, log entry 9). -/
def metadata (i : Instr) : Metadata where
  opcode := opcodeByte i
  length := match i.form with
    | .cb _ | .prefixCb => if Config.cbLengthIsTwo i then 2 else 1
    | x => x.encode.length
  cycles := Config.cycleDuration i

/-- The Instruction at pc, the inner one for a CB pair (R93, R170). -/
def instrAtPc (s : Running) : Except Fault Instr :=
  match fetchDecode s with
  | .error f => .error f
  | .ok (.prefixCb, s₁) =>
    match fetch8 s₁ with
    | .error f => .error f
    | .ok (op2, _) =>
      match decodeCb op2 with
      | some i => .ok i
      | none => raise (.decodeErrorCb op2)
  | .ok (i, _) => .ok i

/-- Inspection: the driver reads the registers and memories directly, without the bus, and only while the machine runs
(decision D23); a faulted machine has none (R223). -/
def inspect (s : State) : Option Running :=
  match s.status with
  | .running m => some m
  | .faulted _ => none

/-- `program_counter()` (R236). -/
def programCounter (s : State) : Option Word := (inspect s).map Running.pc

/-- The diagnostic of a stopped machine: the fault with its information, the one thing a faulted machine shows (R221,
R223). -/
def diagnostic (s : State) : Option Fault :=
  match s.status with
  | .running _ => none
  | .faulted f => some f

/-- What one call of `step()` returns to the driver: the Instruction that ran, with the next state (R93, R236). -/
def stepReport (s : State) : Option (Instr × State) :=
  match step s, (inspect s).map instrAtPc with
  | .next t, some (.ok i) => some (i, t)
  | _, _ => none

/-- `VRAM[i]`, `i` below 8192 (R10, R25). -/
def vramAt (s : Running) (i : Nat) : Byte := s.mem.byteAt s.cfg.vramFill.byte (0x8000 + i)

/-- `WRAM[i]`, `i` below 8192 (R10). -/
def wramAt (s : Running) (i : Nat) : Byte := s.mem.byteAt s.cfg.wramFill.byte (0xC000 + i)

/-- `IO[i]`, `i` below 128 (R10, R47): the three slots the PPU bytes shadow are never listed, so they keep IO_FILL
(R46). -/
def ioAt (s : Running) (i : Nat) : Byte := s.mem.byteAt s.cfg.ioFill.byte (0xFF00 + i)

/-- `HRAM[i]`, `i` below 127 (R10). -/
def hramAt (s : Running) (i : Nat) : Byte := s.mem.byteAt s.cfg.hramFill.byte (0xFF80 + i)

end Sys2Proof.Machine
end

