-- ==== Sys2Proof/WellFormed.lean ====
section
/-! DEFINITION. Which byte sequences are instructions, from the spec's own lists (spec/30_encoding.md R80, R86, R87,
R88), written apart from the decoder. A term of Instr needs no check of its own: the width of each operand stands
in its type, so every term is an instruction. -/

namespace Sys2Proof

/-- The admitted values of byte 0: the list that closes R87. -/
def admittedPrimary (op : Byte) : Bool :=
  [0x00, 0x01, 0x03, 0x04, 0x05, 0x06, 0x0A, 0x0B, 0x0C, 0x0D, 0x0E, 0x11, 0x13, 0x14, 0x15, 0x16, 0x17, 0x18, 0x1A,
    0x1B, 0x1C, 0x1D, 0x1E].contains op
  || [0x20, 0x21, 0x22, 0x23, 0x24, 0x25, 0x26, 0x28, 0x2B, 0x2C, 0x2D, 0x2E, 0x30, 0x31, 0x32, 0x33, 0x38, 0x3B, 0x3C,
    0x3D, 0x3E].contains op
  || (0x40 ≤ op.toNat && op.toNat ≤ 0x6F)
  || (0x78 ≤ op.toNat && op.toNat ≤ 0x7F)
  || op == 0xAF
  || (0xB8 ≤ op.toNat && op.toNat ≤ 0xBF)
  || [0xC1, 0xC5, 0xC9, 0xCB, 0xCD, 0xD1, 0xD5, 0xE0, 0xE1, 0xE2, 0xE5, 0xEA, 0xF1, 0xF5, 0xF9, 0xFE].contains op

/-- The admitted values of the byte after 0xCB (R88). -/
def admittedCb (op2 : Byte) : Bool :=
  [0x10, 0x11, 0x12, 0x13, 0x14, 0x15, 0x17].contains op2
  || (0x40 ≤ op2.toNat && op2.toNat ≤ 0x7F && op2.toNat % 8 != 6)

/-- The number of operand bytes after an admitted first byte (R80, R81, R86): format OP_D8 takes one, OP_D16 two. -/
def operandCount (op : Byte) : Nat :=
  if [0x06, 0x0E, 0x16, 0x1E, 0x26, 0x2E, 0x3E, 0xE0, 0xFE, 0x18, 0x20, 0x28, 0x30, 0x38].contains op then 1
  else if [0x01, 0x11, 0x21, 0x31, 0xEA, 0xCD].contains op then 2
  else 0

/-- Whether a byte sequence is exactly one instruction (R80). -/
def wellFormedBytes : List Byte → Bool
  | [] => false
  | op :: rest =>
    if op == 0xCB then
      match rest with
      | [op2] => admittedCb op2
      | _ => false
    else admittedPrimary op && rest.length == operandCount op

end Sys2Proof
end

