-- ==== Sys2Proof/Safety.lean ====
section
/-! DEFINITION. The terms claims are stated in: when an instruction completes, which addresses a bus access answers
(spec/20_memory.md R45), the invariant of a running machine, and the spec's tables of what each instruction writes
(spec/10_state.md R12, R18, spec/20_memory.md R58), written apart from the meanings. -/

namespace Sys2Proof.Machine

/-- The state after an instruction that completes. -/
def next? : Out → Option State
  | .next t => some t
  | .fault _ => none
  | .refused _ => none

/-- A safe step: the machine has a next state. -/
def Safe (s : State) : Prop := ∃ t, step s = .next t

/-- The addresses no store answers: 0xA000 to 0xBFFF, 0xE000 to 0xFEFF, 0xFFFF (R45). -/
abbrev Unmapped (a : Word) : Prop :=
  (0xA000 ≤ a.toNat ∧ a.toNat ≤ 0xBFFF) ∨ (0xE000 ≤ a.toNat ∧ a.toNat ≤ 0xFEFF) ∨ a.toNat = 0xFFFF

/-- The addresses a bus write stores to (R45, R51, R52). -/
abbrev Writable (a : Word) : Prop :=
  (0x8000 ≤ a.toNat ∧ a.toNat ≤ 0x9FFF) ∨ (0xC000 ≤ a.toNat ∧ a.toNat ≤ 0xDFFF)
    ∨ (0xFF00 ≤ a.toNat ∧ a.toNat ≤ 0xFFFE ∧ a.toNat ≠ 0xFF44)

/-- The addresses a bus read returns a byte for (R43, R45). -/
abbrev Readable (s : Running) (a : Word) : Prop :=
  (a.toNat ≤ 0x00FF ∧ a.toNat < s.cfg.boot.length)
    ∨ (0x0100 ≤ a.toNat ∧ a.toNat ≤ 0x7FFF ∧ a.toNat - s.cfg.cartRebase.val < s.cfg.cart.length)
    ∨ (0x8000 ≤ a.toNat ∧ a.toNat ≤ 0x9FFF) ∨ (0xC000 ≤ a.toNat ∧ a.toNat ≤ 0xDFFF)
    ∨ (0xFF00 ≤ a.toNat ∧ a.toNat ≤ 0xFFFE)

/-- A ROM address past the end of its blob (R43). -/
abbrev PastBlob (s : Running) (a : Word) : Prop :=
  (a.toNat ≤ 0x00FF ∧ s.cfg.boot.length ≤ a.toNat)
    ∨ (0x0100 ≤ a.toNat ∧ a.toNat ≤ 0x7FFF ∧ s.cfg.cart.length ≤ a.toNat - s.cfg.cartRebase.val)

/-- The bytes at an address and after it, each read through the bus, are those of the list. -/
def Holds (s : Running) (a : Word) (bytes : List Byte) : Prop :=
  ∀ k, (h : k < bytes.length) → memRead s (a + BitVec.ofNat 16 k) = .ok bytes[k]

/-- Every register and every piece of state that is not reached by the bus is the same. -/
structure SameCore (s t : Running) : Prop where
  regs    : ∀ r, t.get8 r = s.get8 r
  f       : t.f = s.f
  sp      : t.sp = s.sp
  pc      : t.pc = s.pc
  cfg     : t.cfg = s.cfg
  scrollX : t.scrollX = s.scrollX
  ly      : t.ly = s.ly

/-- The invariant of the registers and memories: the low nibble of F is zero (R16), and the byte arrays keep their
canonical form. -/
structure Running.Inv (s : Running) : Prop where
  lowNibble : s.f &&& 0x0F = 0
  memory    : Memory.Wf s.cfg s.mem

/-- The invariant of the machine: it is running (R30), and its registers and memories keep theirs. -/
def Inv (s : State) : Prop := ∃ m : Running, s = .running m ∧ m.Inv

/-- A state after one byte was stored at `a`: that byte reads as `v`, every other byte as before. -/
structure StoredAt (a : Word) (v : Byte) (s t : Running) : Prop where
  byte  : memRead t a = .ok v
  other : ∀ x, x ≠ a → memRead t x = memRead s x

/-- A state after a 16-bit value was pushed (R54, R193): the high byte at SP - 1, the low byte at SP - 2, SP down by two,
every other byte and all state but pc as before. -/
structure Pushed (w : Word) (s t : Running) : Prop where
  sp      : t.sp = s.sp - 2
  high    : memRead t (s.sp - 1) = .ok (hiByte w)
  low     : memRead t (s.sp - 2) = .ok (loByte w)
  other   : ∀ x, x ≠ s.sp - 1 → x ≠ s.sp - 2 → memRead t x = memRead s x
  regs    : ∀ r, t.get8 r = s.get8 r
  f       : t.f = s.f
  cfg     : t.cfg = s.cfg
  scrollX : t.scrollX = s.scrollX
  ly      : t.ly = s.ly

/-- The faults of the operand fetches after the opcode `op`, which takes one operand byte, or two (R82, R83, R86): the
fault of the first operand byte, and of the second, ends the step. -/
def OperandFetchFaults (op : Byte) (two : Bool) : Prop :=
  ∀ (s : Running) (f : Fault), memRead s s.pc = .ok op →
    (memRead s (s.pc + 1) = .error f → step (.running s) = .fault f) ∧
    (two = true → ∀ lo, memRead s (s.pc + 1) = .ok lo → memRead s (s.pc + 2) = .error f →
      step (.running s) = .fault f)

/-- The register code of R171 and R85 as a number: B = 0, C = 1, D = 2, E = 3, H = 4, L = 5, A = 7. -/
def regNumber : Reg8 → Byte
  | .b => 0
  | .c => 1
  | .d => 2
  | .e => 3
  | .h => 4
  | .l => 5
  | .a => 7

/-! ### What each form writes -/

/-- The halves of a pair. -/
def pairHalves : PairSp → List Reg8
  | .bc => [.b, .c]
  | .de => [.d, .e]
  | .hl => [.h, .l]
  | .sp => []

/-- The general registers a pop into a pair writes. -/
def popHalves : PairAf → List Reg8
  | .bc => [.b, .c]
  | .de => [.d, .e]
  | .hl => [.h, .l]
  | .af => [.a]

/-- The general registers a form writes (R12). -/
def destRegs : Form → List Reg8
  | .ldRegReg dst _ => [dst]
  | .ldRegIndHl dst => [dst]
  | .ldRegImm dst _ => [dst]
  | .ldAIndBc | .ldAIndDe => [.a]
  | .ldPairImm p _ => pairHalves p
  | .ldIndHlIncA | .ldIndHlDecA => [.h, .l]
  | .incReg r | .decReg r => [r]
  | .incPair p | .decPair p => pairHalves p
  | .xorA | .rla => [.a]
  | .pop q => popHalves q
  | .cb (.rl r) => [r]
  | .cb (.bit _ _) => []
  | .nop | .ldSpHl | .ldhIndImmA _ | .ldIndCA | .ldIndAbsA _ | .cpReg _ | .cpIndHl | .cpImm _ | .jr _
    | .jrCond _ _ | .call _ | .ret | .push _ | .prefixCb => []

/-- The flags a form writes; every other flag is preserved (R18). -/
def flagsWritten : Form → Flags
  | .incReg _ | .decReg _ => ⟨true, true, true, false⟩
  | .xorA | .cpReg _ | .cpIndHl | .cpImm _ | .rla => ⟨true, true, true, true⟩
  | .cb (.rl _) => ⟨true, true, true, true⟩
  | .cb (.bit _ _) => ⟨true, true, true, false⟩
  | .pop q => if q = .af then ⟨true, true, true, true⟩ else ⟨false, false, false, false⟩
  | .nop | .ldRegReg _ _ | .ldRegIndHl _ | .ldRegImm _ _ | .ldAIndBc | .ldAIndDe | .ldPairImm _ _ | .ldSpHl
    | .ldhIndImmA _ | .ldIndCA | .ldIndHlIncA | .ldIndHlDecA | .ldIndAbsA _ | .incPair _ | .decPair _ | .jr _
    | .jrCond _ _ | .call _ | .ret | .push _ | .prefixCb => ⟨false, false, false, false⟩

/-- Whether a form writes SP (R19). -/
def writesSp : Form → Bool
  | .ldPairImm p _ => p == .sp
  | .incPair p | .decPair p => p == .sp
  | .ldSpHl | .call _ | .ret | .push _ | .pop _ => true
  | .nop | .ldRegReg _ _ | .ldRegIndHl _ | .ldRegImm _ _ | .ldAIndBc | .ldAIndDe | .ldhIndImmA _ | .ldIndCA
    | .ldIndHlIncA | .ldIndHlDecA | .ldIndAbsA _ | .incReg _ | .decReg _ | .xorA | .cpReg _ | .cpIndHl
    | .cpImm _ | .rla | .jr _ | .jrCond _ _ | .prefixCb | .cb _ => false

/-- Whether a form transfers control (R21, R199). -/
def transfers : Form → Bool
  | .jr _ | .jrCond _ _ | .call _ | .ret => true
  | .nop | .ldRegReg _ _ | .ldRegIndHl _ | .ldRegImm _ _ | .ldAIndBc | .ldAIndDe | .ldPairImm _ _ | .ldSpHl
    | .ldhIndImmA _ | .ldIndCA | .ldIndHlIncA | .ldIndHlDecA | .ldIndAbsA _ | .incReg _ | .decReg _
    | .incPair _ | .decPair _ | .xorA | .cpReg _ | .cpIndHl | .cpImm _ | .rla | .push _ | .pop _ | .prefixCb
    | .cb _ => false

/-- The addresses a form stores a byte to, executed in the state `s` (R58). -/
def storesTo (x : Form) (s : Running) : List Word :=
  match x with
  | .ldhIndImmA n => [pagedAddr n]
  | .ldIndCA => [pagedAddr s.c]
  | .ldIndHlIncA | .ldIndHlDecA => [s.get16 .hl]
  | .ldIndAbsA n => [n]
  | .call _ | .push _ => [s.sp - 1, s.sp - 2]
  | .nop | .ldRegReg _ _ | .ldRegIndHl _ | .ldRegImm _ _ | .ldAIndBc | .ldAIndDe | .ldPairImm _ _ | .ldSpHl
    | .incReg _ | .decReg _ | .incPair _ | .decPair _ | .xorA | .cpReg _ | .cpIndHl | .cpImm _ | .rla | .jr _
    | .jrCond _ _ | .ret | .pop _ | .prefixCb | .cb _ => []

/-- The addresses a form loads a byte from when it executes in the state `s`, in the order it loads them (R58). -/
def loadsFrom (x : Form) (s : Running) : List Word :=
  match x with
  | .ldRegIndHl _ | .cpIndHl => [s.get16 .hl]
  | .ldAIndBc => [s.get16 .bc]
  | .ldAIndDe => [s.get16 .de]
  | .ret | .pop _ => [s.sp, s.sp + 1]
  | .nop | .ldRegReg _ _ | .ldRegImm _ _ | .ldPairImm _ _ | .ldSpHl | .ldhIndImmA _ | .ldIndCA | .ldIndHlIncA
    | .ldIndHlDecA | .ldIndAbsA _ | .incReg _ | .decReg _ | .incPair _ | .decPair _ | .xorA | .cpReg _ | .cpImm _
    | .rla | .jr _ | .jrCond _ _ | .call _ | .push _ | .prefixCb | .cb _ => []

/-! ### What faults -/

/-- The instruction whose bytes stand at pc, read through the bus, is one of form `x`. -/
def FormAtPc (s : Running) (x : Form) : Prop :=
  ∃ bytes i, Holds s s.pc bytes ∧ decodeWhole bytes = .ok (i, []) ∧ i.form = x

/-- The number of bytes a step fetches after the first byte `op`, which is admitted: the operand bytes (R86), or the
second byte of a CB pair. -/
def bytesAfter (op : Byte) : Nat := if op = 0xCB then 1 else operandCount op

/-- The addresses a step fetches from (R82, R83, R86, R93): pc, and where the first byte is admitted, the addresses of the
bytes that follow it. -/
def FetchedFrom (s : Running) (a : Word) : Prop :=
  a = s.pc ∨ ∃ op k, memRead s s.pc = .ok op ∧ admittedPrimary op = true ∧ 1 ≤ k ∧ k ≤ bytesAfter op ∧
    a = s.pc + BitVec.ofNat 16 k

/-- The addresses a step reads: those it fetches from, and those the instruction at pc loads from. -/
def ReadByStep (s : Running) (a : Word) : Prop :=
  FetchedFrom s a ∨ ∃ x, FormAtPc s x ∧ a ∈ loadsFrom x s

/-- The addresses a step writes: those the instruction at pc stores to. -/
def WrittenByStep (s : Running) (a : Word) : Prop := ∃ x, FormAtPc s x ∧ a ∈ storesTo x s

/-- What R221 says of each fault a step can end in: a byte the decoder does not admit, or an address the step itself
reads or writes that does not answer. -/
def FaultCause (s : Running) : Fault → Prop
  | .decodeError op => memRead s s.pc = .ok op ∧ admittedPrimary op = false
  | .decodeErrorCb op2 =>
    memRead s s.pc = .ok 0xCB ∧ memRead s (s.pc + 1) = .ok op2 ∧ admittedCb op2 = false
  | .busError .read a => ReadByStep s a ∧ Unmapped a
  | .busError .write a => WrittenByStep s a ∧ ¬ Writable a
  | .inputError a => ReadByStep s a ∧ PastBlob s a

/-! ### Frames -/

/-- The shapes frames are stated for. -/
inductive Shape
  | register
  | store
  | stack
  | cbPrefix
  deriving DecidableEq, Repr

/-- The shape of a form: it stores through a Load, it uses the stack, it is the CB prefix, or it does none of these. -/
def shapeOf : Form → Shape
  | .ldhIndImmA _ | .ldIndCA | .ldIndHlIncA | .ldIndHlDecA | .ldIndAbsA _ => .store
  | .call _ | .ret | .push _ | .pop _ => .stack
  | .prefixCb => .cbPrefix
  | .nop | .ldRegReg _ _ | .ldRegIndHl _ | .ldRegImm _ _ | .ldAIndBc | .ldAIndDe | .ldPairImm _ _ | .ldSpHl
    | .incReg _ | .decReg _ | .incPair _ | .decPair _ | .xorA | .cpReg _ | .cpIndHl | .cpImm _ | .rla | .jr _
    | .jrCond _ _ | .cb _ => .register

/-- What a form executed in `s` leaves unchanged in `t`: every register it does not write, every flag it does not
write (and all of F where it writes none), SP and pc unless it writes them, every piece of state no instruction
writes, and every byte, read through the bus, outside the addresses it stores to. -/
structure Frame (x : Form) (s t : Running) : Prop where
  regs    : ∀ r, r ∉ destRegs x → t.get8 r = s.get8 r
  flagZ   : (flagsWritten x).z = false → t.flags.z = s.flags.z
  flagN   : (flagsWritten x).n = false → t.flags.n = s.flags.n
  flagH   : (flagsWritten x).h = false → t.flags.h = s.flags.h
  flagC   : (flagsWritten x).c = false → t.flags.c = s.flags.c
  f       : flagsWritten x = ⟨false, false, false, false⟩ → t.f = s.f
  sp      : writesSp x = false → t.sp = s.sp
  pc      : transfers x = false → t.pc = s.pc
  cfg     : t.cfg = s.cfg
  scrollX : t.scrollX = s.scrollX
  ly      : t.ly = s.ly
  bytes   : ∀ a, a ∉ storesTo x s → memRead t a = memRead s a

end Sys2Proof.Machine
end

