-- ==== Sys2Proof/Certificates/Slice0/Obligations.lean ====
section
/-! DEFINITION. The statements for the provers. Each formalises rules of spec/, named in its docstring. -/

open Sys2Proof Sys2Proof.Machine

/-! ### Encoding -/

/-- Decoding the encoding of an instruction, whatever bytes follow, gives it back with every operand, and leaves the
bytes that follow (R80, R81, R85, R86, R87, R88). `PREFIX CB` alone is a first byte, which the primary table decodes. -/
def Obligations.DecodeOfEncodeGivesTheInstruction : Prop :=
  (∀ (i : Instr) (rest : List Byte), i ≠ .prefixCb → decodeWhole (encode i ++ rest) = .ok (i, rest)) ∧
  ∀ rest : List Byte, decode (encode .prefixCb ++ rest) = .ok (.prefixCb, rest)

/-- Every byte sequence the decoder accepts is the encoding of the instruction it answers, followed by the bytes it
leaves: no encoding has a second spelling (R81, R87, R88). -/
def Obligations.AcceptedBytesAreTheEncoding : Prop :=
  ∀ (bytes : List Byte) (i : Instr) (rest : List Byte),
    decodeWhole bytes = .ok (i, rest) → bytes = encode i ++ rest

/-- The decoder admits exactly the 125 first bytes of R87's list and the 63 second bytes of R88 (R84). -/
def Obligations.DecoderAdmitsExactlyTheListedBytes : Prop :=
  (∀ op : Byte, (primary op).isSome = admittedPrimary op) ∧
  (∀ op2 : Byte, (decodeCb op2).isSome = admittedCb op2) ∧
  ((List.range 256).filter fun n => admittedPrimary (BitVec.ofNat 8 n)).length = 125 ∧
  ((List.range 256).filter fun n => admittedCb (BitVec.ofNat 8 n)).length = 63

/-- A byte sequence decodes to one instruction and nothing more exactly when it is well formed by the spec's lists, its
length is then 1, 2 or 3, and the first byte alone decides it (R80, R86). -/
def Obligations.WellFormedBytesAreWholeInstructions : Prop :=
  (∀ bytes : List Byte, wellFormedBytes bytes = true ↔ ∃ i, decodeWhole bytes = .ok (i, [])) ∧
  (∀ i : Instr, 1 ≤ i.length ∧ i.length ≤ 3) ∧
  ∀ i j : Instr, i ≠ .prefixCb → j ≠ .prefixCb → (encode i).head? = (encode j).head? → i.length = j.length

/-- Words written out from R81 and R85, at least one per family, decode to their instructions. -/
def Obligations.SampleWordsDecode : Prop :=
  decodeWhole [0b00000000] = .ok (.nop, []) ∧
  decodeWhole [0b01000001] = .ok (.ldBC, []) ∧
  decodeWhole [0b00100110, 0x80] = .ok (.ldHD8 0x80, []) ∧
  decodeWhole [0b01111110] = .ok (.ldAIndHl, []) ∧
  decodeWhole [0b00100001, 0x34, 0x12] = .ok (.ldHlD16 0x1234, []) ∧
  decodeWhole [0b11101010, 0x10, 0x99] = .ok (.ldIndA16A 0x9910, []) ∧
  decodeWhole [0b00110101] = .error (.primary 0x35) ∧
  decodeWhole [0b00011100] = .ok (.incE, []) ∧
  decodeWhole [0b00111011] = .ok (.decSp, []) ∧
  decodeWhole [0b10101111] = .ok (.xorA, []) ∧
  decodeWhole [0b10111010] = .ok (.cpD, []) ∧
  decodeWhole [0b00111000, 0xFE] = .ok (.jrCE8 0xFE, []) ∧
  decodeWhole [0b11001101, 0x95, 0x00] = .ok (.callA16 0x0095, []) ∧
  decodeWhole [0b11110101] = .ok (.pushAf, []) ∧
  decodeWhole [0b11001011, 0b01111100] = .ok (.bit7H, []) ∧
  decodeWhole [0b11001011, 0b00010001] = .ok (.rlC, [])

/-! ### The step -/

/-- When the bytes at pc decode to an instruction, the step is that instruction's meaning in the state whose pc is past
those bytes; and 0xCB at pc runs `PREFIX CB` with pc past that one byte (R20, R82, R83, R93). -/
def Obligations.StepRunsTheDecodedInstruction : Prop :=
  (∀ (s : Running) (bytes : List Byte) (i : Instr), Holds s s.pc bytes → decodeWhole bytes = .ok (i, []) →
    step (.running s) = exec i (.running { s with pc := s.pc + BitVec.ofNat 16 bytes.length })) ∧
  ∀ s : Running, memRead s s.pc = .ok 0xCB →
    step (.running s) = exec .prefixCb (.running { s with pc := s.pc + 1 })

/-- `PREFIX CB` (R170): the byte at pc is fetched and, where it is admitted, the inner instruction runs with pc past it;
where it is not, DecodeError(CB, op2); a fault of the fetch is the step's. Every inner instruction completes. -/
def Obligations.PrefixRunsTheInnerInstruction : Prop :=
  encode .prefixCb = [0xCB] ∧
  (∀ (s : Running) (op2 : Byte) (i : Instr), memRead s s.pc = .ok op2 → decodeCb op2 = some i →
    ∃ t, exec .prefixCb (.running s) = .next (.running t) ∧
      exec i (.running { s with pc := s.pc + 1 }) = .next (.running t) ∧ t.pc = s.pc + 1) ∧
  (∀ (s : Running) (op2 : Byte), memRead s s.pc = .ok op2 → admittedCb op2 = false →
    exec .prefixCb (.running s) = .fault (.decodeErrorCb op2)) ∧
  (∀ (s : Running) (f : Fault), memRead s s.pc = .error f → exec .prefixCb (.running s) = .fault f) ∧
  ∀ s : Running, memRead s s.pc = .ok 0xCB → memRead s (s.pc + 1) = .ok 0xCB →
    step (.running s) = .fault (.decodeErrorCb 0xCB)

/-- A first byte outside the admitted set raises DecodeError(op), whatever the bytes after it are and whether or not
they can be fetched (R90). -/
def Obligations.UnadmittedFirstByteRaisesDecodeError : Prop :=
  ∀ (s : Running) (op : Byte), memRead s s.pc = .ok op → admittedPrimary op = false →
    step (.running s) = .fault (.decodeError op)

/-- A second byte outside the admitted CB set raises DecodeError(CB, op2) (R91). -/
def Obligations.UnadmittedCbByteRaisesDecodeError : Prop :=
  ∀ (s : Running) (op2 : Byte), memRead s s.pc = .ok 0xCB → memRead s (s.pc + 1) = .ok op2 →
    admittedCb op2 = false → step (.running s) = .fault (.decodeErrorCb op2)

/-- The order of R225 among the fetches: the fault of the opcode fetch, of the first operand byte, of the second, and of
the byte after 0xCB ends the step, before any data access. The order is the spec's own derivation. -/
def Obligations.FetchFaultsEndTheStepInOrder : Prop :=
  (∀ (s : Running) (f : Fault), memRead s s.pc = .error f → step (.running s) = .fault f) ∧
  (∀ op : Byte, admittedPrimary op = true → operandCount op = 1 → OperandFetchFaults op false) ∧
  (∀ op : Byte, admittedPrimary op = true → operandCount op = 2 → OperandFetchFaults op true) ∧
  OperandFetchFaults 0xCB false

/-- A fault is terminal (R222): the machine that raised it is faulted with that kind and information and carries nothing
else (R223, decision D19), and stays so however often the driver calls `step()` or acts between the steps. That the step
of a faulted machine, which has none, answers the same fault again is the model's choice (log entry 4, DESIGN CHOICE). -/
def Obligations.FaultIsPermanent : Prop :=
  (∀ f : Fault, step (.faulted f) = .fault f ∧ ¬ Safe (.faulted f) ∧
    ∀ vs : List Byte, drivenRun (.faulted f) vs = .faulted f) ∧
  ∀ (s : State) (f : Fault), step s = .fault f → ∀ n : Nat, Nat.repeat afterStep (n + 1) s = .faulted f

/-- Every fault a step of a running machine ends in has the cause R221 gives it, at an address the step itself accesses: the
first byte or the second CB byte is not admitted; or an address the step fetches from, or the instruction at pc loads
from, is unmapped or past its blob; or an address the instruction at pc stores to is not writable. Nothing else faults. -/
def Obligations.EveryFaultHasItsCause : Prop :=
  ∀ (s : Running) (f : Fault), step (.running s) = .fault f → FaultCause s f

/-- No instruction and no step is refused: every admitted instruction has its meaning (R84, R220). -/
def Obligations.NothingIsRefused : Prop :=
  (∀ (i : Instr) (s : State) (r : Refusal), exec i s ≠ .refused r) ∧
  ∀ (s : State) (r : Refusal), step s ≠ .refused r

/-- The driver's view (R93, R94, R236; decisions D23 and D25): the step reports the instruction that ran, the inner one for a
CB pair, with its opcode byte and length; a running machine can be read, a faulted one shows its fault and nothing else
(R223). Which of 1 and 2 the length of a CB instruction is, of the inner one and of `PREFIX CB` itself, the spec leaves
open (log entry 9). -/
def Obligations.StepReportsTheInstructionThatRan : Prop :=
  (∀ (s : Running) (t : State) (bytes : List Byte) (i : Instr), Holds s s.pc bytes → decodeWhole bytes = .ok (i, []) →
    step (.running s) = .next t → stepReport (.running s) = some (i, t)) ∧
  (∀ i : Instr, (∀ o, i.form ≠ .cb o) → some (metadata i).opcode = (encode i).head? ∧
    (i ≠ .prefixCb → (metadata i).length = i.length)) ∧
  (∀ o : CbOp, encode o.toInstr = [0xCB, (metadata o.toInstr).opcode] ∧
    ((metadata o.toInstr).length = 1 ∨ (metadata o.toInstr).length = 2)) ∧
  ((metadata .prefixCb).length = 1 ∨ (metadata .prefixCb).length = 2) ∧
  (∀ s : Running, inspect (.running s) = some s ∧ programCounter (.running s) = some s.pc ∧
    diagnostic (.running s) = none) ∧
  ∀ f : Fault, inspect (.faulted f) = none ∧ programCounter (.faulted f) = none ∧ diagnostic (.faulted f) = some f

/-! ### Invariants -/

/-- Every step keeps the invariant: F's low nibble is zero (R16), the byte arrays keep their canonical form, and a
machine with a next state is running (R30). -/
def Obligations.StepKeepsInvariant : Prop :=
  ∀ s t : State, Inv s → step s = .next t → Inv t

/-- Construction meets the invariant, for every value of every parameter (R16, R33, R250). -/
def Obligations.ConstructionMeetsInvariant : Prop :=
  (∀ cfg : Config, Inv (State.construct cfg)) ∧ Inv State.reset

/-- Along every run the machine meets the invariant or is the faulted state of one fault (R16, R30, R222): runs of steps
alone, and runs in which the driver of PPU.ly acts before each step with any byte. That the driver acts only between
steps, and the step leaves the byte alone, is log entry 17 (R29). -/
def Obligations.RunsMeetInvariantOrAreFaulted : Prop :=
  (∀ (s : State) (n : Nat), Inv s →
    Inv (Nat.repeat afterStep n s) ∨ ∃ f, Nat.repeat afterStep n s = .faulted f) ∧
  ∀ (s : State) (vs : List Byte), Inv s → Inv (drivenRun s vs) ∨ ∃ f, drivenRun s vs = .faulted f

/-- No step that answers a next state changes a parameter, a ROM image, PPU.scroll_x, PPU.ly or the status, which stays
Running (R23, R28, R29, R30), and what a bus read of the ROM ranges and of 0xFF44 answers stays the same (R48). -/
def Obligations.StepKeepsWhatNothingWrites : Prop :=
  ∀ (s : Running) (t : State), step (.running s) = .next t →
    ∃ m : Running, t = .running m ∧ m.cfg = s.cfg ∧ m.scrollX = s.scrollX ∧ m.ly = s.ly ∧
      ∀ a : Word, a.toNat ≤ 0x7FFF ∨ a = 0xFF44 → memRead m a = memRead s a

/-- The driver of PPU.ly (R29, decision D17): with LY_DRIVER = static it changes nothing; with external it sets the byte
a read of 0xFF44 returns, and nothing else. -/
def Obligations.CurrentLineDriver : Prop :=
  (∀ (s : Running) (v : Byte), s.cfg.lyDriver = .static → (State.running s).driveLy v = .running s) ∧
  (∀ (s : Running) (v : Byte), s.cfg.lyDriver = .external →
    (State.running s).driveLy v = .running { s with ly := v } ∧ memRead { s with ly := v } 0xFF44 = .ok v ∧
    ∀ a : Word, a ≠ 0xFF44 → memRead { s with ly := v } a = memRead s a) ∧
  ∀ (f : Fault) (v : Byte), (State.faulted f).driveLy v = .faulted f

/-- Construction sets every item to its value of R33 (decisions D13 to D16), for every parameter list. The reset state is the
construction with CART_REBASE = 0x0100, LY_DRIVER = static and RLA_ZERO = clear (R5; decisions D21, D17, D7). Its two
empty blobs are the model's choice (log entry 1, DESIGN CHOICE), as are its fills, of which nothing is said (log entry 2). -/
def Obligations.ConstructionValues : Prop :=
  (∀ cfg : Config,
    (Running.construct cfg).pc = 0x0000 ∧ (Running.construct cfg).sp = 0x0000 ∧
    (∀ r, (Running.construct cfg).get8 r = 0x00) ∧ (Running.construct cfg).f = 0x00 ∧
    (∀ i, i < 8192 → vramAt (Running.construct cfg) i = cfg.vramFill.byte) ∧
    (∀ i, i < 8192 → wramAt (Running.construct cfg) i = cfg.wramFill.byte) ∧
    (∀ i, i < 127 → hramAt (Running.construct cfg) i = cfg.hramFill.byte) ∧
    (∀ i, i < 128 → ioAt (Running.construct cfg) i = cfg.ioFill.byte) ∧
    (Running.construct cfg).control = 0x00 ∧ (Running.construct cfg).scrollY = 0x00 ∧
    (Running.construct cfg).scrollX = 0x00 ∧ (Running.construct cfg).ly = 0x00 ∧
    (Running.construct cfg).cfg = cfg ∧ State.construct cfg = .running (Running.construct cfg)) ∧
  Fill.byte .zeros = 0x00 ∧ Fill.byte .ones = 0xFF ∧
  State.reset = .running Running.reset ∧
  Running.reset = Running.construct Running.reset.cfg ∧ Running.reset.cfg.boot = [] ∧ Running.reset.cfg.cart = [] ∧
  Running.reset.cfg.cartRebase.val = 0x0100 ∧ Running.reset.cfg.lyDriver = .static ∧
  Running.reset.cfg.rlaZero = .clear

/-- A step that does not transfer control ends with pc advanced by the instruction's length (R21). -/
def Obligations.PcAdvancesByTheLength : Prop :=
  ∀ (s t : Running) (bytes : List Byte) (i : Instr), Holds s s.pc bytes →
    decodeWhole bytes = .ok (i, []) → step (.running s) = .next (.running t) → transfers i.form = false →
    t.pc = s.pc + BitVec.ofNat 16 i.length

/-! ### The bus -/

/-- `MemRead(addr, 1)` by address (R41). The cartridge index is the address less CART_REBASE, which is 0x0100 by the
spec. -/
def Obligations.BusReadByAddress : Prop :=
  ∀ (s : Running) (a : Word),
    (a.toNat ≤ 0x00FF → ∀ v, s.cfg.boot[a.toNat]? = some v → memRead s a = .ok v) ∧
    (a.toNat ≤ 0x00FF → s.cfg.boot.length ≤ a.toNat → memRead s a = .error (.inputError a)) ∧
    (0x0100 ≤ a.toNat → a.toNat ≤ 0x7FFF → ∀ v, s.cfg.cart[a.toNat - s.cfg.cartRebase.val]? = some v →
      memRead s a = .ok v) ∧
    (0x0100 ≤ a.toNat → a.toNat ≤ 0x7FFF → s.cfg.cart.length ≤ a.toNat - s.cfg.cartRebase.val →
      memRead s a = .error (.inputError a)) ∧
    (0x8000 ≤ a.toNat → a.toNat ≤ 0x9FFF → memRead s a = .ok (vramAt s (a.toNat - 0x8000))) ∧
    (0xC000 ≤ a.toNat → a.toNat ≤ 0xDFFF → memRead s a = .ok (wramAt s (a.toNat - 0xC000))) ∧
    (a = 0xFF40 → memRead s a = .ok s.control) ∧
    (a = 0xFF42 → memRead s a = .ok s.scrollY) ∧
    (a = 0xFF44 → memRead s a = .ok s.ly) ∧
    (0xFF00 ≤ a.toNat → a.toNat ≤ 0xFF7F → a ≠ 0xFF40 → a ≠ 0xFF42 → a ≠ 0xFF44 →
      memRead s a = .ok (ioAt s (a.toNat - 0xFF00))) ∧
    (0xFF80 ≤ a.toNat → a.toNat ≤ 0xFFFE → memRead s a = .ok (hramAt s (a.toNat - 0xFF80))) ∧
    (Unmapped a → memRead s a = .error (.busError .read a))

/-- `MemWrite(addr, 1, v)` by address (R42, with decision D12 for the ROM ranges): a writable address takes the byte, a
later read returns it, every other byte and every register is as before; any other address raises BusError. -/
def Obligations.BusWriteByAddress : Prop :=
  ∀ (s : Running) (a : Word) (v : Byte),
    (Writable a → ∃ t, memWrite s a v = .ok t ∧ SameCore s t ∧ StoredAt a v s t ∧
      (a ≠ 0xFF40 → t.control = s.control) ∧ (a ≠ 0xFF42 → t.scrollY = s.scrollY)) ∧
    (¬ Writable a → memWrite s a v = .error (.busError .write a)) ∧
    (Writable a ↔ ¬ (a.toNat ≤ 0x7FFF ∨ a = 0xFF44 ∨ Unmapped a))

/-- Writing the same byte twice leaves the same state as writing it once, and a read answers the same byte until a write
(R50). -/
def Obligations.WritesAreIdempotent : Prop :=
  ∀ (s t : Running) (a : Word) (v : Byte), memWrite s a v = .ok t → memWrite t a v = .ok t ∧ memRead t a = .ok v

/-- In canonical form, what every address reads as determines the byte arrays: equal memories are equal data (the
model's own representation, log entry 3). -/
def Obligations.ReadsDetermineTheArrays : Prop :=
  ∀ s t : Running, s.cfg = t.cfg → Memory.Wf s.cfg s.mem → Memory.Wf t.cfg t.mem →
    (∀ a : Word, memRead s a = memRead t a) → s.mem = t.mem

/-- A byte stored at any address is what a fetch from that address reads next (R62). -/
def Obligations.StoreIsSeenByTheNextFetch : Prop :=
  ∀ (s t : Running) (a : Word) (v : Byte), memWrite s a v = .ok t →
    fetch8 { t with pc := a } = .ok (v, { t with pc := a + 1 })

/-- No aliasing across ranges, for VRAM (R24, R25): a byte written at 0x8000 + j is byte j of VRAM, and no other byte of
any array changes. -/
def Obligations.VramByteIsNotVisibleElsewhere : Prop :=
  ∀ (s : Running) (j : Nat) (v : Byte), j < 8192 →
    ∃ t, memWrite s (BitVec.ofNat 16 (0x8000 + j)) v = .ok t ∧
      memRead t (BitVec.ofNat 16 (0x8000 + j)) = .ok v ∧ vramAt t j = v ∧
      (∀ i, i ≠ j → vramAt t i = vramAt s i) ∧ (∀ i, wramAt t i = wramAt s i) ∧
      (∀ i, hramAt t i = hramAt s i) ∧ ∀ i, ioAt t i = ioAt s i

/-! ### Registers and flags -/

/-- The 8-bit and 16-bit accessors (R13, R14). -/
def Obligations.RegisterViews : Prop :=
  (∀ (s : Running) (r : Reg8) (v : Byte), (s.set8 r v).get8 r = v ∧ (s.set8 r v).f = s.f ∧
    ∀ q, q ≠ r → (s.set8 r v).get8 q = s.get8 q) ∧
  (∀ (s : Running) (v : Byte), (s.setF v).f = v &&& 0xF0 ∧ ∀ r, (s.setF v).get8 r = s.get8 r) ∧
  (∀ s : Running,
    (s.get16 .bc).toNat = s.b.toNat * 256 + s.c.toNat ∧ (s.get16 .de).toNat = s.d.toNat * 256 + s.e.toNat ∧
    (s.get16 .hl).toNat = s.h.toNat * 256 + s.l.toNat ∧ (s.get16 .af).toNat = s.a.toNat * 256 + s.f.toNat ∧
    s.get16 .sp = s.sp ∧ s.get16 .pc = s.pc) ∧
  (∀ (s : Running) (p : Reg16) (v : Word), p ≠ .af → (s.set16 p v).get16 p = v ∧ (s.set16 p v).f = s.f) ∧
  (∀ (s : Running) (v : Word), (s.set16 .af v).get16 .af = v &&& 0xFFF0) ∧
  ∀ (s : Running) (v : Word),
    ((s.set16 .bc v).b.toNat = v.toNat / 256 ∧ (s.set16 .bc v).c.toNat = v.toNat % 256) ∧
    ((s.set16 .de v).d.toNat = v.toNat / 256 ∧ (s.set16 .de v).e.toNat = v.toNat % 256) ∧
    ((s.set16 .hl v).h.toNat = v.toNat / 256 ∧ (s.set16 .hl v).l.toNat = v.toNat % 256) ∧
    ((s.set16 .af v).a.toNat = v.toNat / 256 ∧ (s.set16 .af v).f = loByte v &&& 0xF0)

/-- The bits of F (R15, R141; the positions are decision D3): ZERO, ADD_SUB, HALF_CARRY, CARRY in bits 7 to 4, bits 3 to 0
zero. A flag write replaces all four, and changes nothing but F. -/
def Obligations.FlagBitPositions : Prop :=
  (∀ s : Running, s.flags.z = s.f.getLsbD 7 ∧ s.flags.n = s.f.getLsbD 6 ∧ s.flags.h = s.f.getLsbD 5 ∧
    s.flags.c = s.f.getLsbD 4) ∧
  ∀ (s : Running) (x : Flags), (s.setFlags x).flags = x ∧ (s.setFlags x).f &&& 0x0F = 0 ∧
    (s.setFlags x).f.toNat = x.z.toNat * 0x80 + x.n.toNat * 0x40 + x.h.toNat * 0x20 + x.c.toNat * 0x10 ∧
    s.setFlags x = { s with f := (s.setFlags x).f }

/-! ### NOP and loads -/

/-- `NOP` (R110). -/
def Obligations.NopOnlyAdvancesPc : Prop :=
  encode .nop = [0x00] ∧
  (∀ s : Running, exec .nop (.running s) = .next (.running s)) ∧
  ∀ s : Running, memRead s s.pc = .ok 0x00 → step (.running s) = .next (.running { s with pc := s.pc + 1 })

/-- `LD r,r'` (R112), for every r and r' of the seven registers; 0x76 is not a load and is not admitted. -/
def Obligations.LoadRegisterFromRegister : Prop :=
  (∀ dst src : Reg8,
    encode (Form.ldRegReg dst src).toInstr = [0x40 + 8 * regNumber dst + regNumber src]) ∧
  admittedPrimary 0x76 = false ∧
  ∀ (dst src : Reg8) (s : Running),
    exec (Form.ldRegReg dst src).toInstr (.running s) = .next (.running (s.set8 dst (s.get8 src)))

/-- `LD r,d8` (R113). -/
def Obligations.LoadRegisterFromImmediate : Prop :=
  (∀ (r : Reg8) (n : Byte), encode (Form.ldRegImm r n).toInstr = [0x06 + 8 * regNumber r, n]) ∧
  admittedPrimary 0x36 = false ∧
  (∀ (r : Reg8) (n : Byte) (s : Running),
    exec (Form.ldRegImm r n).toInstr (.running s) = .next (.running (s.set8 r n))) ∧
  ∀ r : Reg8, OperandFetchFaults (0x06 + 8 * regNumber r) false

/-- `LD r,(HL)` (R114), `LD A,(BC)` (R115), `LD A,(DE)` (R116): the byte at the pair's address, or the fault of that read,
with the destination then not written. -/
def Obligations.LoadRegisterFromMemory : Prop :=
  (∀ r : Reg8, encode (Form.ldRegIndHl r).toInstr = [0x46 + 8 * regNumber r]) ∧
  encode .ldAIndBc = [0x0A] ∧ encode .ldAIndDe = [0x1A] ∧
  (∀ (r : Reg8) (s : Running),
    (Readable s (s.get16 .hl) → ∃ v, memRead s (s.get16 .hl) = .ok v ∧
      exec (Form.ldRegIndHl r).toInstr (.running s) = .next (.running (s.set8 r v))) ∧
    (Unmapped (s.get16 .hl) → exec (Form.ldRegIndHl r).toInstr (.running s) = .fault (.busError .read (s.get16 .hl))) ∧
    (PastBlob s (s.get16 .hl) → exec (Form.ldRegIndHl r).toInstr (.running s) = .fault (.inputError (s.get16 .hl)))) ∧
  (∀ s : Running,
    (Readable s (s.get16 .bc) → ∃ v, memRead s (s.get16 .bc) = .ok v ∧
      exec .ldAIndBc (.running s) = .next (.running (s.set8 .a v))) ∧
    (Unmapped (s.get16 .bc) → exec .ldAIndBc (.running s) = .fault (.busError .read (s.get16 .bc))) ∧
    (PastBlob s (s.get16 .bc) → exec .ldAIndBc (.running s) = .fault (.inputError (s.get16 .bc)))) ∧
  ∀ s : Running,
    (Readable s (s.get16 .de) → ∃ v, memRead s (s.get16 .de) = .ok v ∧
      exec .ldAIndDe (.running s) = .next (.running (s.set8 .a v))) ∧
    (Unmapped (s.get16 .de) → exec .ldAIndDe (.running s) = .fault (.busError .read (s.get16 .de))) ∧
    (PastBlob s (s.get16 .de) → exec .ldAIndDe (.running s) = .fault (.inputError (s.get16 .de)))

/-- `LD rr,d16` (R117): the pair's high register takes bits 15 to 8, its low register bits 7 to 0. -/
def Obligations.LoadPairFromImmediate : Prop :=
  (∀ n : Word, encode (.ldBcD16 n) = [0x01, loByte n, hiByte n] ∧ encode (.ldDeD16 n) = [0x11, loByte n, hiByte n] ∧
    encode (.ldHlD16 n) = [0x21, loByte n, hiByte n] ∧ encode (.ldSpD16 n) = [0x31, loByte n, hiByte n]) ∧
  (∀ (n : Word) (s : Running),
    exec (.ldBcD16 n) (.running s) = .next (.running { s with b := hiByte n, c := loByte n }) ∧
    exec (.ldDeD16 n) (.running s) = .next (.running { s with d := hiByte n, e := loByte n }) ∧
    exec (.ldHlD16 n) (.running s) = .next (.running { s with h := hiByte n, l := loByte n }) ∧
    exec (.ldSpD16 n) (.running s) = .next (.running { s with sp := n })) ∧
  OperandFetchFaults 0x01 true ∧ OperandFetchFaults 0x11 true ∧ OperandFetchFaults 0x21 true ∧
  OperandFetchFaults 0x31 true

/-- `LD SP,HL` (R118). -/
def Obligations.LoadSpFromHl : Prop :=
  encode .ldSpHl = [0xF9] ∧
  ∀ s : Running, exec .ldSpHl (.running s) = .next (.running { s with sp := wordOf s.h s.l })

/-- `LDH (a8),A` (R119) and `LD (C),A` (R120): A is stored at 0xFF00 plus the offset, for every offset but 0x44 and 0xFF,
where the write raises BusError. -/
def Obligations.StoreToThePage : Prop :=
  (∀ n : Byte, encode (.ldhIndA8A n) = [0xE0, n]) ∧ encode .ldIndCA = [0xE2] ∧
  OperandFetchFaults 0xE0 false ∧
  (∀ n : Byte, (pagedAddr n).toNat = 0xFF00 + n.toNat) ∧
  (∀ (n : Byte) (s : Running),
    (n ≠ 0x44 → n ≠ 0xFF → ∃ t, exec (.ldhIndA8A n) (.running s) = .next (.running t) ∧
      SameCore s t ∧ StoredAt (pagedAddr n) s.a s t) ∧
    (n = 0x44 → exec (.ldhIndA8A n) (.running s) = .fault (.busError .write 0xFF44)) ∧
    (n = 0xFF → exec (.ldhIndA8A n) (.running s) = .fault (.busError .write 0xFFFF))) ∧
  ∀ s : Running,
    (s.c ≠ 0x44 → s.c ≠ 0xFF → ∃ t, exec .ldIndCA (.running s) = .next (.running t) ∧
      SameCore s t ∧ StoredAt (pagedAddr s.c) s.a s t) ∧
    (s.c = 0x44 → exec .ldIndCA (.running s) = .fault (.busError .write 0xFF44)) ∧
    (s.c = 0xFF → exec .ldIndCA (.running s) = .fault (.busError .write 0xFFFF))

/-- `LD (HL+),A` (R121) and `LD (HL-),A` (R122): A is stored at the old HL, and HL then moves by one, wrapping; nothing else
changes. A write that raises is the instruction's fault. -/
def Obligations.StoreThroughHlAndMoveIt : Prop :=
  encode .ldIndHlIncA = [0x22] ∧ encode .ldIndHlDecA = [0x32] ∧
  (∀ s : Running, Writable (s.get16 .hl) →
    (∃ t₀, SameCore s t₀ ∧ StoredAt (s.get16 .hl) s.a s t₀ ∧
      exec .ldIndHlIncA (.running s) =
        .next (.running { t₀ with h := hiByte (s.get16 .hl + 1), l := loByte (s.get16 .hl + 1) })) ∧
    ∃ t₀, SameCore s t₀ ∧ StoredAt (s.get16 .hl) s.a s t₀ ∧
      exec .ldIndHlDecA (.running s) =
        .next (.running { t₀ with h := hiByte (s.get16 .hl - 1), l := loByte (s.get16 .hl - 1) })) ∧
  ∀ s : Running, ¬ Writable (s.get16 .hl) →
    exec .ldIndHlIncA (.running s) = .fault (.busError .write (s.get16 .hl)) ∧
    exec .ldIndHlDecA (.running s) = .fault (.busError .write (s.get16 .hl))

/-- `LD (a16),A` (R123). -/
def Obligations.StoreToAnAbsoluteAddress : Prop :=
  (∀ n : Word, encode (.ldIndA16A n) = [0xEA, loByte n, hiByte n]) ∧ OperandFetchFaults 0xEA true ∧
  ∀ (n : Word) (s : Running),
    (Writable n → ∃ t, exec (.ldIndA16A n) (.running s) = .next (.running t) ∧ SameCore s t ∧ StoredAt n s.a s t) ∧
    (¬ Writable n → exec (.ldIndA16A n) (.running s) = .fault (.busError .write n))

/-! ### Arithmetic -/

/-- `INC r` (R142): the register wraps; ZERO from the result, ADD_SUB cleared, HALF_CARRY from the old low nibble, CARRY
preserved; nothing else changes. -/
def Obligations.IncrementRegister : Prop :=
  (∀ r : Reg8, encode (Form.incReg r).toInstr = [0x04 + 8 * regNumber r]) ∧ admittedPrimary 0x34 = false ∧
  ∀ (r : Reg8) (s : Running),
    exec (Form.incReg r).toInstr (.running s) = .next (.running ((s.set8 r (s.get8 r + 1)).setFlags
      { z := decide (s.get8 r + 1 = 0), n := false, h := decide (s.get8 r &&& 0x0F = 0x0F), c := s.flags.c }))

/-- `DEC r` (R143): the register wraps; ZERO from the result, ADD_SUB set, HALF_CARRY from the old low nibble, CARRY
preserved; nothing else changes. -/
def Obligations.DecrementRegister : Prop :=
  (∀ r : Reg8, encode (Form.decReg r).toInstr = [0x05 + 8 * regNumber r]) ∧ admittedPrimary 0x35 = false ∧
  ∀ (r : Reg8) (s : Running),
    exec (Form.decReg r).toInstr (.running s) = .next (.running ((s.set8 r (s.get8 r - 1)).setFlags
      { z := decide (s.get8 r - 1 = 0), n := true, h := decide (s.get8 r &&& 0x0F = 0x00), c := s.flags.c }))

/-- `INC rr` (R144; SP as an operand is decision D10): no flag changes. -/
def Obligations.IncrementPair : Prop :=
  encode .incBc = [0x03] ∧ encode .incDe = [0x13] ∧ encode .incHl = [0x23] ∧ encode .incSp = [0x33] ∧
  ∀ s : Running,
    exec .incBc (.running s) = .next (.running (s.set16 .bc (s.get16 .bc + 1))) ∧
    exec .incDe (.running s) = .next (.running (s.set16 .de (s.get16 .de + 1))) ∧
    exec .incHl (.running s) = .next (.running (s.set16 .hl (s.get16 .hl + 1))) ∧
    exec .incSp (.running s) = .next (.running { s with sp := s.sp + 1 })

/-- `DEC rr` (R145; SP as an operand is decision D10): no flag changes. -/
def Obligations.DecrementPair : Prop :=
  encode .decBc = [0x0B] ∧ encode .decDe = [0x1B] ∧ encode .decHl = [0x2B] ∧ encode .decSp = [0x3B] ∧
  ∀ s : Running,
    exec .decBc (.running s) = .next (.running (s.set16 .bc (s.get16 .bc - 1))) ∧
    exec .decDe (.running s) = .next (.running (s.set16 .de (s.get16 .de - 1))) ∧
    exec .decHl (.running s) = .next (.running (s.set16 .hl (s.get16 .hl - 1))) ∧
    exec .decSp (.running s) = .next (.running { s with sp := s.sp - 1 })

/-- `XOR A` (R146): A is zero and F is 0x80 whatever they were; no other Xor operand is decoded (decision D5). -/
def Obligations.XorAClearsA : Prop :=
  encode .xorA = [0xAF] ∧
  (∀ op ∈ [0xA8, 0xA9, 0xAA, 0xAB, 0xAC, 0xAD, 0xAE, 0xEE], admittedPrimary op = false) ∧
  ∀ s : Running, exec .xorA (.running s) = .next (.running { s with a := 0x00, f := 0x80 })

/-- `CP r` (R148), `CP (HL)` (R149), `CP d8` (R150): ZERO on equality, ADD_SUB set, HALF_CARRY and CARRY by unsigned nibble
and byte borrow; no register but F changes. -/
def Obligations.CompareWritesFlagsOnly : Prop :=
  (∀ r : Reg8, encode (Form.cpReg r).toInstr = [0xB8 + regNumber r]) ∧ encode .cpIndHl = [0xBE] ∧
  (∀ n : Byte, encode (.cpD8 n) = [0xFE, n]) ∧ OperandFetchFaults 0xFE false ∧
  (∀ (r : Reg8) (s : Running),
    exec (Form.cpReg r).toInstr (.running s) = .next (.running (s.setFlags
      { z := decide (s.a = s.get8 r), n := true, h := decide ((s.a &&& 0x0F).toNat < (s.get8 r &&& 0x0F).toNat),
        c := decide (s.a.toNat < (s.get8 r).toNat) }))) ∧
  (∀ (n : Byte) (s : Running),
    exec (.cpD8 n) (.running s) = .next (.running (s.setFlags
      { z := decide (s.a = n), n := true, h := decide ((s.a &&& 0x0F).toNat < (n &&& 0x0F).toNat),
        c := decide (s.a.toNat < n.toNat) }))) ∧
  ∀ s : Running,
    (Readable s (s.get16 .hl) → ∃ v, memRead s (s.get16 .hl) = .ok v ∧
      exec .cpIndHl (.running s) = .next (.running (s.setFlags
        { z := decide (s.a = v), n := true, h := decide ((s.a &&& 0x0F).toNat < (v &&& 0x0F).toNat),
          c := decide (s.a.toNat < v.toNat) }))) ∧
    (Unmapped (s.get16 .hl) → exec .cpIndHl (.running s) = .fault (.busError .read (s.get16 .hl))) ∧
    (PastBlob s (s.get16 .hl) → exec .cpIndHl (.running s) = .fault (.inputError (s.get16 .hl)))

/-- `RLA` (R151, R152): the 9-bit ring of CARRY and A turns left by one. ZERO is the parameter RLA_ZERO's (decision D7),
ADD_SUB and HALF_CARRY are cleared (decision D8). -/
def Obligations.RotateAccumulator : Prop :=
  encode .rla = [0x17] ∧
  ∀ s : Running, ∃ res : Byte,
    (∀ i, i < 7 → res.getLsbD (i + 1) = s.a.getLsbD i) ∧ res.getLsbD 0 = s.flags.c ∧
    exec .rla (.running s) = .next (.running ((s.set8 .a res).setFlags
      { z := (match s.cfg.rlaZero with | .clear => false | .preserve => s.flags.z), n := false, h := false,
        c := s.a.getLsbD 7 }))

/-- Nine `RLA` in a row restore A and CARRY (R152), and the state they leave differs in nothing but F. -/
def Obligations.NineAccumulatorRotatesRestore : Prop :=
  ∀ s : Running, ∃ t : Running,
    Nat.repeat (fun o : Option State => o.bind fun u => next? (exec .rla u)) 9 (some (.running s)) = some (.running t) ∧
    t = { s with f := t.f } ∧ t.flags.c = s.flags.c

/-- `RL r` (R151, R172): the 9-bit ring of CARRY and r turns left by one; ZERO from the result; ADD_SUB and HALF_CARRY are
cleared (decision D8). 0xCB 0x16 is not admitted. -/
def Obligations.RotateRegister : Prop :=
  (∀ r : Reg8, encode (CbOp.rl r).toInstr = [0xCB, 0x10 + regNumber r]) ∧ admittedCb 0x16 = false ∧
  ∀ (r : Reg8) (s : Running), ∃ res : Byte,
    (∀ i, i < 7 → res.getLsbD (i + 1) = (s.get8 r).getLsbD i) ∧ res.getLsbD 0 = s.flags.c ∧
    exec (CbOp.rl r).toInstr (.running s) = .next (.running ((s.set8 r res).setFlags
      { z := decide (res = 0), n := false, h := false, c := (s.get8 r).getLsbD 7 }))

/-- `BIT b,r` (R171): ZERO is the complement of the tested bit, ADD_SUB cleared, HALF_CARRY set, CARRY preserved; nothing
else changes. The (HL) forms are not admitted. -/
def Obligations.TestBit : Prop :=
  (∀ (b : Fin 8) (r : Reg8),
    encode (CbOp.bit b r).toInstr = [0xCB, 0x40 + 8 * BitVec.ofNat 8 b.val + regNumber r]) ∧
  (∀ b : Fin 8, admittedCb (0x46 + 8 * BitVec.ofNat 8 b.val) = false) ∧
  ∀ (b : Fin 8) (r : Reg8) (s : Running),
    exec (CbOp.bit b r).toInstr (.running s) = .next (.running (s.setFlags
      { z := !(s.get8 r).getLsbD b.val, n := false, h := true, c := s.flags.c }))

/-! ### Control transfer and the stack -/

/-- `JR e8` (R191): the signed displacement is added to pc, which is already past the instruction, wrapping. -/
def Obligations.JumpRelative : Prop :=
  (∀ e : Byte, encode (.jrE8 e) = [0x18, e]) ∧ OperandFetchFaults 0x18 false ∧
  (∀ (e : Byte) (s : Running),
    exec (.jrE8 e) (.running s) = .next (.running { s with pc := s.pc + BitVec.ofInt 16 e.toInt })) ∧
  ∀ (s : Running) (e : Byte), Holds s s.pc [0x18, e] →
    step (.running s) = .next (.running { s with pc := s.pc + 2 + BitVec.ofInt 16 e.toInt })

/-- `JR cc,e8` (R190, R192; NC and C are decision D4's): the displacement is added only where the condition holds; the
displacement byte is fetched either way. -/
def Obligations.JumpRelativeOnCondition : Prop :=
  (∀ e : Byte, encode (.jrNzE8 e) = [0x20, e] ∧ encode (.jrZE8 e) = [0x28, e] ∧ encode (.jrNcE8 e) = [0x30, e] ∧
    encode (.jrCE8 e) = [0x38, e]) ∧
  OperandFetchFaults 0x20 false ∧ OperandFetchFaults 0x28 false ∧ OperandFetchFaults 0x30 false ∧
  OperandFetchFaults 0x38 false ∧
  ∀ (e : Byte) (s : Running),
    (exec (.jrNzE8 e) (.running s) =
      .next (.running (if s.flags.z then s else { s with pc := s.pc + BitVec.ofInt 16 e.toInt }))) ∧
    (exec (.jrZE8 e) (.running s) =
      .next (.running (if s.flags.z then { s with pc := s.pc + BitVec.ofInt 16 e.toInt } else s))) ∧
    (exec (.jrNcE8 e) (.running s) =
      .next (.running (if s.flags.c then s else { s with pc := s.pc + BitVec.ofInt 16 e.toInt }))) ∧
    (exec (.jrCE8 e) (.running s) =
      .next (.running (if s.flags.c then { s with pc := s.pc + BitVec.ofInt 16 e.toInt } else s)))

/-- `CALL a16` (R194): pc, already the return address, is pushed, high byte first, and pc is the target. The first push that
cannot be made is the fault. -/
def Obligations.CallPushesTheReturnAddress : Prop :=
  (∀ n : Word, encode (.callA16 n) = [0xCD, loByte n, hiByte n]) ∧ OperandFetchFaults 0xCD true ∧
  ∀ (n : Word) (s : Running),
    (Writable (s.sp - 1) → Writable (s.sp - 2) →
      ∃ t, exec (.callA16 n) (.running s) = .next (.running t) ∧ Pushed s.pc s t ∧ t.pc = n) ∧
    (¬ Writable (s.sp - 1) → exec (.callA16 n) (.running s) = .fault (.busError .write (s.sp - 1))) ∧
    (Writable (s.sp - 1) → ¬ Writable (s.sp - 2) →
      exec (.callA16 n) (.running s) = .fault (.busError .write (s.sp - 2)))

/-- `RET` (R195): pc is the popped address, low byte first, and SP moves up by two; the first pop that cannot be made is the
fault. (That the pops happen at execution is decision D9, not observable.) -/
def Obligations.ReturnPopsPc : Prop :=
  encode .ret = [0xC9] ∧
  (∀ (s : Running) (lo hi : Byte), memRead s s.sp = .ok lo → memRead s (s.sp + 1) = .ok hi →
    exec .ret (.running s) = .next (.running { s with sp := s.sp + 2, pc := wordOf hi lo })) ∧
  (∀ (s : Running) (f : Fault), memRead s s.sp = .error f → exec .ret (.running s) = .fault f) ∧
  ∀ (s : Running) (f : Fault) (lo : Byte), memRead s s.sp = .ok lo → memRead s (s.sp + 1) = .error f →
    exec .ret (.running s) = .fault f

/-- `PUSH rr` (R196): the pair is pushed, high byte first; nothing else changes. The first push that cannot be made is the
fault. -/
def Obligations.PushStoresThePair : Prop :=
  encode .pushBc = [0xC5] ∧ encode .pushDe = [0xD5] ∧ encode .pushHl = [0xE5] ∧ encode .pushAf = [0xF5] ∧
  ∀ (s : Running),
    (Writable (s.sp - 1) → Writable (s.sp - 2) →
      (∃ t, exec .pushBc (.running s) = .next (.running t) ∧ Pushed (wordOf s.b s.c) s t ∧ t.pc = s.pc) ∧
      (∃ t, exec .pushDe (.running s) = .next (.running t) ∧ Pushed (wordOf s.d s.e) s t ∧ t.pc = s.pc) ∧
      (∃ t, exec .pushHl (.running s) = .next (.running t) ∧ Pushed (wordOf s.h s.l) s t ∧ t.pc = s.pc) ∧
      ∃ t, exec .pushAf (.running s) = .next (.running t) ∧ Pushed (wordOf s.a s.f) s t ∧ t.pc = s.pc) ∧
    (¬ Writable (s.sp - 1) → ∀ i ∈ [Instr.pushBc, .pushDe, .pushHl, .pushAf],
      exec i (.running s) = .fault (.busError .write (s.sp - 1))) ∧
    (Writable (s.sp - 1) → ¬ Writable (s.sp - 2) → ∀ i ∈ [Instr.pushBc, .pushDe, .pushHl, .pushAf],
      exec i (.running s) = .fault (.busError .write (s.sp - 2)))

/-- `POP rr` for BC, DE, HL (R197): the high register takes the byte at SP + 1, the low register the byte at SP, SP moves up by
two; nothing else changes. The first pop that cannot be made is the fault. -/
def Obligations.PopLoadsThePair : Prop :=
  encode .popBc = [0xC1] ∧ encode .popDe = [0xD1] ∧ encode .popHl = [0xE1] ∧
  (∀ (s : Running) (lo hi : Byte), memRead s s.sp = .ok lo → memRead s (s.sp + 1) = .ok hi →
    exec .popBc (.running s) = .next (.running { s with sp := s.sp + 2, b := hi, c := lo }) ∧
    exec .popDe (.running s) = .next (.running { s with sp := s.sp + 2, d := hi, e := lo }) ∧
    exec .popHl (.running s) = .next (.running { s with sp := s.sp + 2, h := hi, l := lo })) ∧
  ∀ (s : Running) (f : Fault), ∀ i ∈ [Instr.popBc, .popDe, .popHl],
    (memRead s s.sp = .error f → exec i (.running s) = .fault f) ∧
    ∀ lo, memRead s s.sp = .ok lo → memRead s (s.sp + 1) = .error f → exec i (.running s) = .fault f

/-- `POP AF` (R198; the mask is the spec's derivation from R16): A takes the byte at SP + 1, F the byte at SP with its low
nibble zero, SP moves up by two; nothing else changes. -/
def Obligations.PopAfMasksF : Prop :=
  encode .popAf = [0xF1] ∧
  (∀ (s : Running) (lo hi : Byte), memRead s s.sp = .ok lo → memRead s (s.sp + 1) = .ok hi →
    exec .popAf (.running s) = .next (.running { s with sp := s.sp + 2, a := hi, f := lo &&& 0xF0 })) ∧
  ∀ (s : Running) (f : Fault),
    (memRead s s.sp = .error f → exec .popAf (.running s) = .fault f) ∧
    ∀ lo, memRead s s.sp = .ok lo → memRead s (s.sp + 1) = .error f → exec .popAf (.running s) = .fault f

/-- `CALL` then `RET` (R194, R195, R54): pc is the return address the call pushed, and SP is back; every register, parameter
and PPU byte behind no address is as before, and so is every byte but the two stacked ones. -/
def Obligations.ReturnUndoesCall : Prop :=
  ∀ (s : Running) (n : Word), Writable (s.sp - 1) → Writable (s.sp - 2) →
    ∃ t u : Running, exec (.callA16 n) (.running s) = .next (.running t) ∧
      exec .ret (.running t) = .next (.running u) ∧ SameCore s u ∧
      ∀ a, a ≠ s.sp - 1 → a ≠ s.sp - 2 → memRead u a = memRead s a

/-- `PUSH` of any pair then `POP` of any pair (R193, R196, R197, R198): the second holds what the first held, but for the low
nibble of F, and SP is back. -/
def Obligations.PopUndoesPush : Prop :=
  ∀ (s : Running) (q₁ q₂ : PairAf), Writable (s.sp - 1) → Writable (s.sp - 2) →
    ∃ t u : Running, exec (Form.push q₁).toInstr (.running s) = .next (.running t) ∧
      exec (Form.pop q₂).toInstr (.running t) = .next (.running u) ∧ u.sp = s.sp ∧
      (q₂ ≠ .af → u.get16 (pairAfView q₂) = s.get16 (pairAfView q₁)) ∧
      (q₂ = .af → u.get16 .af = s.get16 (pairAfView q₁) &&& 0xFFF0)

/-! ### Frames -/

/-- What an instruction that neither stores nor uses the stack leaves unchanged (R12, R17, R18, R58): everything but its
destination registers, the flags the spec names for it, SP where it names SP, and pc where it is a jump; every byte of
memory is as before. -/
def Obligations.RegisterInstructionFrame : Prop :=
  ∀ (i : Instr) (s : Running) (t : State), shapeOf i.form = .register → exec i (.running s) = .next t →
    ∃ m : Running, t = .running m ∧ Frame i.form s m

/-- What a store leaves unchanged (R12, R18, R58): every register but the moved HL, all of F, SP, pc, and every byte outside the
one address the instruction computes. -/
def Obligations.StoreInstructionFrame : Prop :=
  ∀ (i : Instr) (s : Running) (t : State), shapeOf i.form = .store → exec i (.running s) = .next t →
    ∃ m : Running, t = .running m ∧ Frame i.form s m

/-- What CALL, RET, PUSH and POP leave unchanged (R12, R18, R58): every register but a popped pair and SP, every flag but after
POP AF, pc but for CALL and RET, and every byte outside SP - 1 and SP - 2 for CALL and PUSH, every byte for RET and POP. -/
def Obligations.StackInstructionFrame : Prop :=
  ∀ (i : Instr) (s : Running) (t : State), shapeOf i.form = .stack → exec i (.running s) = .next t →
    ∃ m : Running, t = .running m ∧ Frame i.form s m
end

