-- ==== Sys2Proof/Laws/Bits.lean ====
section
/-! SUPPORT. The laws of the byte-order helpers and of the flag byte. -/

namespace Sys2Proof

@[simp] theorem hiByte_wordOf (hi lo : Byte) : hiByte (wordOf hi lo) = hi := by
  apply BitVec.eq_of_toNat_eq
  simp [hiByte, wordOf]
  omega

@[simp] theorem loByte_wordOf (hi lo : Byte) : loByte (wordOf hi lo) = lo := by
  apply BitVec.eq_of_toNat_eq
  simp [loByte, wordOf]
  omega

@[simp] theorem wordOf_hiByte_loByte (v : Word) : wordOf (hiByte v) (loByte v) = v := by
  apply BitVec.eq_of_toNat_eq
  simp [hiByte, loByte, wordOf]
  omega

@[simp] theorem loByte_zext16 (v : Byte) : loByte (zext16 v) = v := by
  apply BitVec.eq_of_toNat_eq
  simp [loByte, zext16]
  omega

namespace Machine

theorem Flags.byte_masked (x : Flags) : x.byte &&& 0xF0 = x.byte := by
  rcases x with ⟨z, n, h, c⟩
  revert z n h c
  decide

theorem Flags.byte_low (x : Flags) : x.byte &&& 0x0F = 0 := by
  rcases x with ⟨z, n, h, c⟩
  revert z n h c
  decide

@[simp] theorem Flags.ofByte_byte (x : Flags) : Flags.ofByte x.byte = x := by
  rcases x with ⟨z, n, h, c⟩
  revert z n h c
  decide

@[simp] theorem Running.setFlags_f (s : Running) (x : Flags) : (s.setFlags x).f = x.byte :=
  Flags.byte_masked x

@[simp] theorem Running.flags_setFlags (s : Running) (x : Flags) : (s.setFlags x).flags = x := by
  simp [Running.flags]

/-- A masked byte has a zero low nibble (R16). -/
theorem masked_low (v : Byte) : v &&& 0xF0 &&& 0x0F = 0 := by
  rw [BitVec.and_assoc]
  exact BitVec.and_zero

end Machine

end Sys2Proof
end

