-- ==== Sys2Proof/Laws/Memory.lean ====
section
/-! SUPPORT. The laws of the byte arrays: read after write, and that every operation keeps the canonical form. -/

namespace Sys2Proof.Machine

theorem Memory.byteAt_insert_same (base : Byte) (n : Nat) (v : Byte) (m : Memory) :
    (m.insert n v).byteAt base n = v := by
  induction m with
  | nil => simp [Memory.insert, Memory.byteAt]
  | cons x m ih =>
    obtain ⟨k, y⟩ := x
    simp only [Memory.insert]
    split
    · simp [Memory.byteAt]
    · split
      · simp [Memory.byteAt]
      · next h => simp [Memory.byteAt, ih, Ne.symm h]

theorem Memory.byteAt_insert_ne (base : Byte) {n j : Nat} (v : Byte) (m : Memory) (h : j ≠ n) :
    (m.insert n v).byteAt base j = m.byteAt base j := by
  induction m with
  | nil => simp [Memory.insert, Memory.byteAt, Ne.symm h]
  | cons x m ih =>
    obtain ⟨k, y⟩ := x
    simp only [Memory.insert]
    split
    · simp [Memory.byteAt, Ne.symm h]
    · split
      · next h' => subst h'; simp [Memory.byteAt, Ne.symm h]
      · simp [Memory.byteAt, ih]

theorem Memory.byteAt_erase_same (base : Byte) (n : Nat) (m : Memory) : (m.erase n).byteAt base n = base := by
  induction m with
  | nil => rfl
  | cons x m ih =>
    obtain ⟨k, y⟩ := x
    simp only [Memory.erase]
    split
    · exact ih
    · next h => simp [Memory.byteAt, h, ih]

theorem Memory.byteAt_erase_ne (base : Byte) {n j : Nat} (m : Memory) (h : j ≠ n) :
    (m.erase n).byteAt base j = m.byteAt base j := by
  induction m with
  | nil => rfl
  | cons x m ih =>
    obtain ⟨k, y⟩ := x
    simp only [Memory.erase]
    split
    · next h' => subst h'; simp [Memory.byteAt, ih, Ne.symm h]
    · simp [Memory.byteAt, ih]

/-- A read of the address just written gives the byte written. -/
@[simp] theorem Memory.byteAt_put_same (base : Byte) (n : Nat) (v : Byte) (m : Memory) :
    (m.put base n v).byteAt base n = v := by
  simp only [Memory.put]
  split
  · next h => rw [Memory.byteAt_erase_same, h]
  · exact Memory.byteAt_insert_same base n v m

/-- A write leaves every other address alone, whatever its own fill. -/
theorem Memory.byteAt_put_ne (base base' : Byte) {n j : Nat} (v : Byte) (m : Memory) (h : j ≠ n) :
    (m.put base n v).byteAt base' j = m.byteAt base' j := by
  simp only [Memory.put]
  split
  · exact Memory.byteAt_erase_ne base' m h
  · exact Memory.byteAt_insert_ne base' v m h

theorem Memory.mem_insert {n : Nat} {v : Byte} {m : Memory} {x : Host.Cell} (h : x ∈ m.insert n v) :
    x = (n, v) ∨ x ∈ m := by
  induction m with
  | nil => simpa [Memory.insert] using h
  | cons y m ih =>
    obtain ⟨k, w⟩ := y
    simp only [Memory.insert] at h
    split at h
    · simpa using h
    · split at h
      · rcases List.mem_cons.1 h with h | h
        · exact .inl h
        · exact .inr (List.mem_cons_of_mem _ h)
      · rcases List.mem_cons.1 h with h | h
        · exact .inr (h ▸ List.mem_cons_self)
        · exact (ih h).imp id (List.mem_cons_of_mem _)

theorem Memory.mem_erase {n : Nat} {m : Memory} {x : Host.Cell} (h : x ∈ m.erase n) : x ∈ m := by
  induction m with
  | nil => exact h
  | cons y m ih =>
    obtain ⟨k, w⟩ := y
    simp only [Memory.erase] at h
    split at h
    · exact List.mem_cons_of_mem _ (ih h)
    · rcases List.mem_cons.1 h with h | h
      · exact h ▸ List.mem_cons_self
      · exact List.mem_cons_of_mem _ (ih h)

theorem Memory.insert_rising {n : Nat} {v : Byte} {m : Memory} (h : m.Pairwise (fun x y => x.1 < y.1)) :
    (m.insert n v).Pairwise (fun x y => x.1 < y.1) := by
  induction m with
  | nil => simp [Memory.insert]
  | cons y m ih =>
    obtain ⟨k, w⟩ := y
    rw [List.pairwise_cons] at h
    simp only [Memory.insert]
    split
    · next hk =>
      refine List.pairwise_cons.2 ⟨fun x hx => ?_, List.pairwise_cons.2 h⟩
      rcases List.mem_cons.1 hx with rfl | hx
      · exact hk
      · exact Nat.lt_trans hk (h.1 x hx)
    · split
      · next hk => subst hk; exact List.pairwise_cons.2 h
      · next h₁ h₂ =>
        refine List.pairwise_cons.2 ⟨fun x hx => ?_, ih h.2⟩
        rcases Memory.mem_insert hx with rfl | hx
        · exact Nat.lt_of_le_of_ne (Nat.le_of_not_lt h₁) (Ne.symm h₂)
        · exact h.1 x hx

theorem Memory.erase_rising {n : Nat} {m : Memory} (h : m.Pairwise (fun x y => x.1 < y.1)) :
    (m.erase n).Pairwise (fun x y => x.1 < y.1) := by
  induction m with
  | nil => exact h
  | cons y m ih =>
    obtain ⟨k, w⟩ := y
    rw [List.pairwise_cons] at h
    simp only [Memory.erase]
    split
    · exact ih h.2
    · exact List.pairwise_cons.2 ⟨fun x hx => h.1 x (Memory.mem_erase hx), ih h.2⟩

/-- A store keeps the canonical form when it uses the fill of the address's own array. -/
theorem Memory.put_wf {cfg : Config} {base : Byte} {n : Nat} {m : Memory} (v : Byte) (hb : fillAt cfg n = some base)
    (h : Memory.Wf cfg m) : Memory.Wf cfg (m.put base n v) := by
  simp only [Memory.put]
  split
  · exact ⟨Memory.erase_rising h.1, fun x hx => h.2 x (Memory.mem_erase hx)⟩
  · next hv =>
    refine ⟨Memory.insert_rising h.1, fun x hx => ?_⟩
    rcases Memory.mem_insert hx with rfl | hx
    · simp [listable, hb, hv]
    · exact h.2 x hx

/-- Storing the same byte again changes nothing. -/
theorem Memory.put_put (base : Byte) (n : Nat) (v : Byte) (m : Memory) :
    (m.put base n v).put base n v = m.put base n v := by
  simp only [Memory.put]
  split
  · induction m with
    | nil => rfl
    | cons y m ih =>
      obtain ⟨k, w⟩ := y
      simp only [Memory.erase]
      split
      · exact ih
      · next h => simp [Memory.erase, h, ih]
  · induction m with
    | nil => simp [Memory.insert]
    | cons y m ih =>
      obtain ⟨k, w⟩ := y
      simp only [Memory.insert]
      split
      · simp [Memory.insert]
      · split
        · simp [Memory.insert]
        · next h₁ h₂ => simp [Memory.insert, h₁, h₂, ih]

/-- A byte that differs from the fill is listed. -/
theorem Memory.mem_of_byteAt_ne {base : Byte} {n : Nat} {m : Memory} (h : m.byteAt base n ≠ base) :
    (n, m.byteAt base n) ∈ m := by
  induction m with
  | nil => exact absurd rfl h
  | cons y m ih =>
    obtain ⟨k, w⟩ := y
    simp only [Memory.byteAt] at h ⊢
    split
    · next hk => subst hk; exact List.mem_cons_self
    · next hk =>
      rw [if_neg hk] at h
      exact List.mem_cons_of_mem _ (ih h)

/-- In a list of rising addresses, a listed cell is what its address reads as. -/
theorem Memory.byteAt_of_mem {base : Byte} {m : Memory} {x : Host.Cell} (h : m.Pairwise (fun x y => x.1 < y.1))
    (hx : x ∈ m) : m.byteAt base x.1 = x.2 := by
  induction m with
  | nil => cases hx
  | cons y m ih =>
    obtain ⟨k, w⟩ := y
    rw [List.pairwise_cons] at h
    simp only [Memory.byteAt]
    rcases List.mem_cons.1 hx with rfl | hx
    · simp
    · rw [if_neg (Nat.ne_of_lt (h.1 x hx)), ih h.2 hx]

end Sys2Proof.Machine
end

