-- ==== Sys2Proof/Laws/State.lean ====
section
/-! SUPPORT. The small lemmas of the state updates: one per field and update, each true by computation, so that no
later proof unfolds a record update. -/

namespace Sys2Proof.Machine

/-! ### `set8` -/

@[simp] theorem Running.get8_set8_same (s : Running) (r : Reg8) (v : Byte) : (s.set8 r v).get8 r = v := by
  cases r <;> rfl

theorem Running.get8_set8_ne (s : Running) {q r : Reg8} (v : Byte) (h : q ≠ r) : (s.set8 r v).get8 q = s.get8 q := by
  cases q <;> cases r <;> first | rfl | exact absurd rfl h

@[simp] theorem Running.set8_cfg (s : Running) (r : Reg8) (v : Byte) : (s.set8 r v).cfg = s.cfg := by
  cases r <;> rfl

@[simp] theorem Running.set8_f (s : Running) (r : Reg8) (v : Byte) : (s.set8 r v).f = s.f := by
  cases r <;> rfl

@[simp] theorem Running.set8_sp (s : Running) (r : Reg8) (v : Byte) : (s.set8 r v).sp = s.sp := by
  cases r <;> rfl

@[simp] theorem Running.set8_pc (s : Running) (r : Reg8) (v : Byte) : (s.set8 r v).pc = s.pc := by
  cases r <;> rfl

@[simp] theorem Running.set8_mem (s : Running) (r : Reg8) (v : Byte) : (s.set8 r v).mem = s.mem := by
  cases r <;> rfl

@[simp] theorem Running.set8_control (s : Running) (r : Reg8) (v : Byte) : (s.set8 r v).control = s.control := by
  cases r <;> rfl

@[simp] theorem Running.set8_scrollY (s : Running) (r : Reg8) (v : Byte) : (s.set8 r v).scrollY = s.scrollY := by
  cases r <;> rfl

@[simp] theorem Running.set8_scrollX (s : Running) (r : Reg8) (v : Byte) : (s.set8 r v).scrollX = s.scrollX := by
  cases r <;> rfl

@[simp] theorem Running.set8_ly (s : Running) (r : Reg8) (v : Byte) : (s.set8 r v).ly = s.ly := by
  cases r <;> rfl

/-! ### `setF` and `setFlags` -/

@[simp] theorem Running.setF_f (s : Running) (v : Byte) : (s.setF v).f = v &&& 0xF0 := rfl

@[simp] theorem Running.setF_get8 (s : Running) (v : Byte) (r : Reg8) : (s.setF v).get8 r = s.get8 r := by
  cases r <;> rfl

@[simp] theorem Running.setF_a (s : Running) (v : Byte) : (s.setF v).a = s.a := rfl

@[simp] theorem Running.setF_b (s : Running) (v : Byte) : (s.setF v).b = s.b := rfl

@[simp] theorem Running.setF_c (s : Running) (v : Byte) : (s.setF v).c = s.c := rfl

@[simp] theorem Running.setF_d (s : Running) (v : Byte) : (s.setF v).d = s.d := rfl

@[simp] theorem Running.setF_e (s : Running) (v : Byte) : (s.setF v).e = s.e := rfl

@[simp] theorem Running.setF_h (s : Running) (v : Byte) : (s.setF v).h = s.h := rfl

@[simp] theorem Running.setF_l (s : Running) (v : Byte) : (s.setF v).l = s.l := rfl

@[simp] theorem Running.setF_cfg (s : Running) (v : Byte) : (s.setF v).cfg = s.cfg := rfl

@[simp] theorem Running.setF_sp (s : Running) (v : Byte) : (s.setF v).sp = s.sp := rfl

@[simp] theorem Running.setF_pc (s : Running) (v : Byte) : (s.setF v).pc = s.pc := rfl

@[simp] theorem Running.setF_mem (s : Running) (v : Byte) : (s.setF v).mem = s.mem := rfl

@[simp] theorem Running.setF_control (s : Running) (v : Byte) : (s.setF v).control = s.control := rfl

@[simp] theorem Running.setF_scrollY (s : Running) (v : Byte) : (s.setF v).scrollY = s.scrollY := rfl

@[simp] theorem Running.setF_scrollX (s : Running) (v : Byte) : (s.setF v).scrollX = s.scrollX := rfl

@[simp] theorem Running.setF_ly (s : Running) (v : Byte) : (s.setF v).ly = s.ly := rfl

@[simp] theorem Running.setFlags_get8 (s : Running) (x : Flags) (r : Reg8) : (s.setFlags x).get8 r = s.get8 r := by
  cases r <;> rfl

@[simp] theorem Running.setFlags_a (s : Running) (x : Flags) : (s.setFlags x).a = s.a := rfl

@[simp] theorem Running.setFlags_b (s : Running) (x : Flags) : (s.setFlags x).b = s.b := rfl

@[simp] theorem Running.setFlags_c (s : Running) (x : Flags) : (s.setFlags x).c = s.c := rfl

@[simp] theorem Running.setFlags_d (s : Running) (x : Flags) : (s.setFlags x).d = s.d := rfl

@[simp] theorem Running.setFlags_e (s : Running) (x : Flags) : (s.setFlags x).e = s.e := rfl

@[simp] theorem Running.setFlags_h (s : Running) (x : Flags) : (s.setFlags x).h = s.h := rfl

@[simp] theorem Running.setFlags_l (s : Running) (x : Flags) : (s.setFlags x).l = s.l := rfl

@[simp] theorem Running.setFlags_cfg (s : Running) (x : Flags) : (s.setFlags x).cfg = s.cfg := rfl

@[simp] theorem Running.setFlags_sp (s : Running) (x : Flags) : (s.setFlags x).sp = s.sp := rfl

@[simp] theorem Running.setFlags_pc (s : Running) (x : Flags) : (s.setFlags x).pc = s.pc := rfl

@[simp] theorem Running.setFlags_mem (s : Running) (x : Flags) : (s.setFlags x).mem = s.mem := rfl

@[simp] theorem Running.setFlags_control (s : Running) (x : Flags) : (s.setFlags x).control = s.control := rfl

@[simp] theorem Running.setFlags_scrollY (s : Running) (x : Flags) : (s.setFlags x).scrollY = s.scrollY := rfl

@[simp] theorem Running.setFlags_scrollX (s : Running) (x : Flags) : (s.setFlags x).scrollX = s.scrollX := rfl

@[simp] theorem Running.setFlags_ly (s : Running) (x : Flags) : (s.setFlags x).ly = s.ly := rfl

/-! ### `set16` -/

@[simp] theorem Running.set16_cfg (s : Running) (p : Reg16) (v : Word) : (s.set16 p v).cfg = s.cfg := by
  cases p <;> rfl

@[simp] theorem Running.set16_mem (s : Running) (p : Reg16) (v : Word) : (s.set16 p v).mem = s.mem := by
  cases p <;> rfl

@[simp] theorem Running.set16_control (s : Running) (p : Reg16) (v : Word) : (s.set16 p v).control = s.control := by
  cases p <;> rfl

@[simp] theorem Running.set16_scrollY (s : Running) (p : Reg16) (v : Word) : (s.set16 p v).scrollY = s.scrollY := by
  cases p <;> rfl

@[simp] theorem Running.set16_scrollX (s : Running) (p : Reg16) (v : Word) : (s.set16 p v).scrollX = s.scrollX := by
  cases p <;> rfl

@[simp] theorem Running.set16_ly (s : Running) (p : Reg16) (v : Word) : (s.set16 p v).ly = s.ly := by
  cases p <;> rfl

theorem Running.set16_f (s : Running) {p : Reg16} (v : Word) (h : p ≠ .af) : (s.set16 p v).f = s.f := by
  cases p <;> first | rfl | exact absurd rfl h

theorem Running.set16_sp (s : Running) {p : Reg16} (v : Word) (h : p ≠ .sp) : (s.set16 p v).sp = s.sp := by
  cases p <;> first | rfl | exact absurd rfl h

theorem Running.set16_pc (s : Running) {p : Reg16} (v : Word) (h : p ≠ .pc) : (s.set16 p v).pc = s.pc := by
  cases p <;> first | rfl | exact absurd rfl h

/-! ### `arrayWrite` -/

@[simp] theorem Running.arrayWrite_get8 (s : Running) (x : Fill) (a : Word) (v : Byte) (r : Reg8) :
    (s.arrayWrite x a v).get8 r = s.get8 r := by
  cases r <;> rfl

@[simp] theorem Running.arrayWrite_mem (s : Running) (x : Fill) (a : Word) (v : Byte) :
    (s.arrayWrite x a v).mem = s.mem.put x.byte a.toNat v := rfl

@[simp] theorem Running.arrayWrite_a (s : Running) (x : Fill) (a : Word) (v : Byte) : (s.arrayWrite x a v).a = s.a := rfl

@[simp] theorem Running.arrayWrite_b (s : Running) (x : Fill) (a : Word) (v : Byte) : (s.arrayWrite x a v).b = s.b := rfl

@[simp] theorem Running.arrayWrite_c (s : Running) (x : Fill) (a : Word) (v : Byte) : (s.arrayWrite x a v).c = s.c := rfl

@[simp] theorem Running.arrayWrite_d (s : Running) (x : Fill) (a : Word) (v : Byte) : (s.arrayWrite x a v).d = s.d := rfl

@[simp] theorem Running.arrayWrite_e (s : Running) (x : Fill) (a : Word) (v : Byte) : (s.arrayWrite x a v).e = s.e := rfl

@[simp] theorem Running.arrayWrite_h (s : Running) (x : Fill) (a : Word) (v : Byte) : (s.arrayWrite x a v).h = s.h := rfl

@[simp] theorem Running.arrayWrite_l (s : Running) (x : Fill) (a : Word) (v : Byte) : (s.arrayWrite x a v).l = s.l := rfl

@[simp] theorem Running.arrayWrite_cfg (s : Running) (x : Fill) (a : Word) (v : Byte) : (s.arrayWrite x a v).cfg = s.cfg := rfl

@[simp] theorem Running.arrayWrite_f (s : Running) (x : Fill) (a : Word) (v : Byte) : (s.arrayWrite x a v).f = s.f := rfl

@[simp] theorem Running.arrayWrite_sp (s : Running) (x : Fill) (a : Word) (v : Byte) : (s.arrayWrite x a v).sp = s.sp := rfl

@[simp] theorem Running.arrayWrite_pc (s : Running) (x : Fill) (a : Word) (v : Byte) : (s.arrayWrite x a v).pc = s.pc := rfl

@[simp] theorem Running.arrayWrite_control (s : Running) (x : Fill) (a : Word) (v : Byte) : (s.arrayWrite x a v).control = s.control := rfl

@[simp] theorem Running.arrayWrite_scrollY (s : Running) (x : Fill) (a : Word) (v : Byte) : (s.arrayWrite x a v).scrollY = s.scrollY := rfl

@[simp] theorem Running.arrayWrite_scrollX (s : Running) (x : Fill) (a : Word) (v : Byte) : (s.arrayWrite x a v).scrollX = s.scrollX := rfl

@[simp] theorem Running.arrayWrite_ly (s : Running) (x : Fill) (a : Word) (v : Byte) : (s.arrayWrite x a v).ly = s.ly := rfl

/-! ### A write of pc or SP alone -/

@[simp] theorem Running.get8_pc (s : Running) (v : Word) (r : Reg8) : ({ s with pc := v } : Running).get8 r = s.get8 r := by
  cases r <;> rfl

@[simp] theorem Running.get8_sp (s : Running) (v : Word) (r : Reg8) : ({ s with sp := v } : Running).get8 r = s.get8 r := by
  cases r <;> rfl

@[simp] theorem Running.get8_sp_pc (s : Running) (v w : Word) (r : Reg8) :
    ({ s with sp := v, pc := w } : Running).get8 r = s.get8 r := by
  cases r <;> rfl

end Sys2Proof.Machine
end

