-- ==== Sys2Proof/Laws/Ops.lean ====
section
/-! SUPPORT. One lemma per shared operation that says once everything it can do: what it answered, given that it
answered a state. -/

namespace Sys2Proof.Machine

/-! ### The bus -/

/-- A bus read depends on the parameters, the byte arrays and the three PPU bytes alone. -/
theorem memRead_congr {s t : Running} (a : Word) (h₁ : t.cfg = s.cfg) (h₂ : t.mem = s.mem) (h₃ : t.control = s.control)
    (h₄ : t.scrollY = s.scrollY) (h₅ : t.ly = s.ly) : memRead t a = memRead s a := by
  simp only [memRead, Running.arrayRead, h₁, h₂, h₃, h₄, h₅]

@[simp] theorem memRead_set8 (s : Running) (r : Reg8) (v : Byte) (a : Word) : memRead (s.set8 r v) a = memRead s a :=
  memRead_congr a (by simp) (by simp) (by simp) (by simp) (by simp)

@[simp] theorem memRead_setFlags (s : Running) (x : Flags) (a : Word) : memRead (s.setFlags x) a = memRead s a :=
  memRead_congr a rfl rfl rfl rfl rfl

@[simp] theorem memRead_set16 (s : Running) (p : Reg16) (v : Word) (a : Word) :
    memRead (s.set16 p v) a = memRead s a :=
  memRead_congr a (by simp) (by simp) (by simp) (by simp) (by simp)

@[simp] theorem memRead_pc (s : Running) (v : Word) (a : Word) : memRead { s with pc := v } a = memRead s a :=
  memRead_congr a rfl rfl rfl rfl rfl

@[simp] theorem memRead_sp (s : Running) (v : Word) (a : Word) : memRead { s with sp := v } a = memRead s a :=
  memRead_congr a rfl rfl rfl rfl rfl

/-- What a bus write that answers a state did: it stored one byte into the array that owns the address, or into one of
the two PPU bytes that can be written. -/
theorem memWrite_cases {s t : Running} {a : Word} {v : Byte} (h : memWrite s a v = .ok t) :
    (∃ x : Fill, fillAt s.cfg a.toNat = some x.byte ∧ t = s.arrayWrite x a v) ∨
    (region a.toNat = .ppuControl ∧ t = { s with control := v }) ∨
    (region a.toNat = .ppuScrollY ∧ t = { s with scrollY := v }) := by
  unfold memWrite at h
  cases hr : region a.toNat <;> rw [hr] at h <;> simp only [raise, Except.ok.injEq, reduceCtorEq] at h
  · exact .inl ⟨_, by simp [fillAt, hr], h.symm⟩
  · exact .inl ⟨_, by simp [fillAt, hr], h.symm⟩
  · exact .inr (.inl ⟨rfl, h.symm⟩)
  · exact .inr (.inr ⟨rfl, h.symm⟩)
  · exact .inl ⟨_, by simp [fillAt, hr], h.symm⟩
  · exact .inl ⟨_, by simp [fillAt, hr], h.symm⟩

/-- A bus write keeps the canonical form of the byte arrays. -/
theorem memWrite_keeps_wf {s t : Running} {a : Word} {v : Byte} (h : memWrite s a v = .ok t)
    (hs : Memory.Wf s.cfg s.mem) : Memory.Wf t.cfg t.mem := by
  obtain ⟨x, hx, rfl⟩ | ⟨-, rfl⟩ | ⟨-, rfl⟩ := memWrite_cases h
  · exact Memory.put_wf v hx hs
  · exact hs
  · exact hs

/-! ### Fetching -/

/-- `fetch8` answers the byte at pc, with pc past it. -/
theorem fetch8_ok {s t : Running} {b : Byte} (h : fetch8 s = .ok (b, t)) :
    memRead s s.pc = .ok b ∧ t = { s with pc := s.pc + 1 } := by
  unfold fetch8 at h
  split at h <;> simp_all

/-- `fetch16` answers the two bytes at pc, low byte first, with pc past them. -/
theorem fetch16_ok {s t : Running} {w : Word} (h : fetch16 s = .ok (w, t)) :
    ∃ lo hi, memRead s s.pc = .ok lo ∧ memRead s (s.pc + 1) = .ok hi ∧ w = wordOf hi lo ∧
      t = { s with pc := s.pc + 1 + 1 } := by
  unfold fetch16 at h
  split at h
  · cases h
  · next lo s₁ h₁ =>
    split at h
    · cases h
    · next hi s₂ h₂ =>
      obtain ⟨hlo, rfl⟩ := fetch8_ok h₁
      obtain ⟨hhi, rfl⟩ := fetch8_ok h₂
      cases h
      exact ⟨lo, hi, hlo, by simpa using hhi, rfl, rfl⟩

/-! ### The stack -/

/-- `push8` moves SP down by one and writes the byte there. -/
theorem push8_ok {s t : Running} {v : Byte} (h : push8 v s = .ok t) :
    memWrite { s with sp := s.sp - 1 } (s.sp - 1) v = .ok t := h

/-- `push16` writes the high byte below SP and the low byte below that. -/
theorem push16_ok {s t : Running} {w : Word} (h : push16 w s = .ok t) :
    ∃ s₁, memWrite { s with sp := s.sp - 1 } (s.sp - 1) (hiByte w) = .ok s₁ ∧
      memWrite { s₁ with sp := s₁.sp - 1 } (s₁.sp - 1) (loByte w) = .ok t := by
  unfold push16 at h
  split at h
  · next s₁ h₁ => exact ⟨s₁, h₁, h⟩
  · cases h

/-- `pop8` answers the byte at SP, with SP past it. -/
theorem pop8_ok {s t : Running} {b : Byte} (h : pop8 s = .ok (b, t)) :
    memRead s s.sp = .ok b ∧ t = { s with sp := s.sp + 1 } := by
  unfold pop8 at h
  split at h <;> simp_all

/-- `pop16` answers the two bytes at SP, low byte first, with SP past them. -/
theorem pop16_ok {s t : Running} {w : Word} (h : pop16 s = .ok (w, t)) :
    ∃ lo hi, memRead s s.sp = .ok lo ∧ memRead s (s.sp + 1) = .ok hi ∧ w = wordOf hi lo ∧
      t = { s with sp := s.sp + 1 + 1 } := by
  unfold pop16 at h
  split at h
  · cases h
  · next lo s₁ h₁ =>
    split at h
    · cases h
    · next hi s₂ h₂ =>
      obtain ⟨hlo, rfl⟩ := pop8_ok h₁
      obtain ⟨hhi, rfl⟩ := pop8_ok h₂
      cases h
      exact ⟨lo, hi, hlo, by simpa using hhi, rfl, rfl⟩

/-! ### Operands -/

/-- A resolved source is its value, or the byte at its address (R111). -/
theorem resolve_indirect {s : Running} {p : Reg16} {v : Word} (h : resolve (.indirect p) s = .ok v) :
    ∃ b, memRead s (s.get16 p) = .ok b ∧ v = zext16 b := by
  simp only [resolve] at h
  split at h
  · next b hb => exact ⟨b, hb, by cases h; rfl⟩
  · cases h

/-- A Load is a resolved source, committed (R111). -/
theorem load_ok {s t : Running} {dst : Dst} {src : Src} (h : load dst src s = .ok t) :
    ∃ v, resolve src s = .ok v ∧ commit dst v s = .ok t := by
  unfold load at h
  split at h
  · next v hv => exact ⟨v, hv, h⟩
  · cases h

/-- A store through HL is one bus write at the old HL, and then the new HL (R111). -/
theorem storeHlThen_ok {s t : Running} {next : Word} {v : Byte} (h : storeHlThen next v s = .ok t) :
    ∃ s₁, memWrite s (s.get16 .hl) v = .ok s₁ ∧ t = s₁.set16 .hl next := by
  unfold storeHlThen at h
  split at h
  · next s₁ h₁ => exact ⟨s₁, h₁, by cases h; rfl⟩
  · cases h

/-- An instruction that completes leaves a running machine, and its operations all answered. -/
theorem finish_next {r : Except Fault Running} {t : State} : finish r = .next t ↔ ∃ m, t = .running m ∧ r = .ok m := by
  cases r with
  | error f => simp [finish]
  | ok m => simp [finish, eq_comm]

/-- An instruction that faults has an operation that raised. -/
theorem finish_fault {r : Except Fault Running} {f : Fault} : finish r = .fault f ↔ r = .error f := by
  cases r <;> simp [finish]

/-- An instruction never refuses through `finish`. -/
theorem finish_not_refused (r : Except Fault Running) (x : Refusal) : finish r ≠ .refused x := by
  cases r <;> simp [finish]

@[simp] theorem run_running (op : Running → Except Fault Running) (m : Running) :
    run op (.running m) = finish (op m) := rfl

@[simp] theorem run_faulted (op : Running → Except Fault Running) (f : Fault) : run op (.faulted f) = .fault f := rfl

end Sys2Proof.Machine
end

