-- ==== Sys2Proof/Laws/Step.lean ====
section
/-! SUPPORT. The laws of fetching, of the CB prefix and of the step: what each answers, from the bytes at pc. -/

namespace Sys2Proof.Machine

/-! ### Fetching -/

theorem fetch8_of_read {s : Running} {b : Byte} (h : memRead s s.pc = .ok b) :
    fetch8 s = .ok (b, { s with pc := s.pc + 1 }) := by
  unfold fetch8
  rw [h]

theorem fetch8_of_fault {s : Running} {f : Fault} (h : memRead s s.pc = .error f) : fetch8 s = .error f := by
  unfold fetch8
  rw [h]

theorem fetch16_of_reads {s : Running} {lo hi : Byte} (h₁ : memRead s s.pc = .ok lo)
    (h₂ : memRead s (s.pc + 1) = .ok hi) : fetch16 s = .ok (wordOf hi lo, { s with pc := s.pc + 2 }) := by
  have h₂' : memRead { s with pc := s.pc + 1 } (s.pc + 1) = .ok hi := by rw [memRead_pc, h₂]
  unfold fetch16
  rw [fetch8_of_read h₁]
  simp only
  rw [fetch8_of_read h₂']
  simp only [BitVec.add_assoc]
  rfl

theorem fetch16_of_fault {s : Running} {f : Fault} (h : memRead s s.pc = .error f) : fetch16 s = .error f := by
  unfold fetch16
  rw [fetch8_of_fault h]

theorem fetch16_of_second_fault {s : Running} {lo : Byte} {f : Fault} (h₁ : memRead s s.pc = .ok lo)
    (h₂ : memRead s (s.pc + 1) = .error f) : fetch16 s = .error f := by
  have h₂' : memRead { s with pc := s.pc + 1 } (s.pc + 1) = .error f := by rw [memRead_pc, h₂]
  unfold fetch16
  rw [fetch8_of_read h₁]
  simp only
  rw [fetch8_of_fault h₂']

/-! ### Fetching and decoding -/

theorem fetchDecode_op {s : Running} {op : Byte} {i : Instr} (h : memRead s s.pc = .ok op)
    (he : primary op = some (.op i)) : fetchDecode s = .ok (i, { s with pc := s.pc + 1 }) := by
  unfold fetchDecode
  rw [fetch8_of_read h]
  simp only [he]

theorem fetchDecode_d8 {s : Running} {op n : Byte} {mk : Byte → Instr} (h : memRead s s.pc = .ok op)
    (he : primary op = some (.d8 mk)) (h₁ : memRead s (s.pc + 1) = .ok n) :
    fetchDecode s = .ok (mk n, { s with pc := s.pc + 2 }) := by
  have h₁' : memRead { s with pc := s.pc + 1 } (s.pc + 1) = .ok n := by rw [memRead_pc, h₁]
  unfold fetchDecode
  rw [fetch8_of_read h]
  simp only [he]
  rw [fetch8_of_read h₁']
  simp only [BitVec.add_assoc]
  rfl

theorem fetchDecode_d16 {s : Running} {op lo hi : Byte} {mk : Word → Instr} (h : memRead s s.pc = .ok op)
    (he : primary op = some (.d16 mk)) (h₁ : memRead s (s.pc + 1) = .ok lo) (h₂ : memRead s (s.pc + 2) = .ok hi) :
    fetchDecode s = .ok (mk (wordOf hi lo), { s with pc := s.pc + 3 }) := by
  have e : s.pc + 1 + 1 = s.pc + 2 := by rw [BitVec.add_assoc]; rfl
  have e' : s.pc + 1 + 2 = s.pc + 3 := by rw [BitVec.add_assoc]; rfl
  have h₁' : memRead { s with pc := s.pc + 1 } (s.pc + 1) = .ok lo := by rw [memRead_pc, h₁]
  have h₂' : memRead { s with pc := s.pc + 1 } (s.pc + 1 + 1) = .ok hi := by rw [memRead_pc, e, h₂]
  unfold fetchDecode
  rw [fetch8_of_read h]
  simp only [he]
  rw [fetch16_of_reads h₁' h₂']
  simp only [e']

theorem fetchDecode_unadmitted {s : Running} {op : Byte} (h : memRead s s.pc = .ok op) (he : primary op = none) :
    fetchDecode s = .error (.decodeError op) := by
  unfold fetchDecode
  rw [fetch8_of_read h]
  simp only [he, raise]

theorem fetchDecode_fault {s : Running} {f : Fault} (h : memRead s s.pc = .error f) : fetchDecode s = .error f := by
  unfold fetchDecode
  rw [fetch8_of_fault h]

theorem fetchDecode_d8_fault {s : Running} {op : Byte} {mk : Byte → Instr} {f : Fault} (h : memRead s s.pc = .ok op)
    (he : primary op = some (.d8 mk)) (h₁ : memRead s (s.pc + 1) = .error f) : fetchDecode s = .error f := by
  have h₁' : memRead { s with pc := s.pc + 1 } (s.pc + 1) = .error f := by rw [memRead_pc, h₁]
  unfold fetchDecode
  rw [fetch8_of_read h]
  simp only [he]
  rw [fetch8_of_fault h₁']

theorem fetchDecode_d16_fault {s : Running} {op : Byte} {mk : Word → Instr} {f : Fault} (h : memRead s s.pc = .ok op)
    (he : primary op = some (.d16 mk)) (h₁ : memRead s (s.pc + 1) = .error f) : fetchDecode s = .error f := by
  have h₁' : memRead { s with pc := s.pc + 1 } (s.pc + 1) = .error f := by rw [memRead_pc, h₁]
  unfold fetchDecode
  rw [fetch8_of_read h]
  simp only [he]
  rw [fetch16_of_fault h₁']

theorem fetchDecode_d16_second_fault {s : Running} {op lo : Byte} {mk : Word → Instr} {f : Fault}
    (h : memRead s s.pc = .ok op) (he : primary op = some (.d16 mk)) (h₁ : memRead s (s.pc + 1) = .ok lo)
    (h₂ : memRead s (s.pc + 2) = .error f) : fetchDecode s = .error f := by
  have e : s.pc + 1 + 1 = s.pc + 2 := by rw [BitVec.add_assoc]; rfl
  have h₁' : memRead { s with pc := s.pc + 1 } (s.pc + 1) = .ok lo := by rw [memRead_pc, h₁]
  have h₂' : memRead { s with pc := s.pc + 1 } (s.pc + 1 + 1) = .error f := by rw [memRead_pc, e, h₂]
  unfold fetchDecode
  rw [fetch8_of_read h]
  simp only [he]
  rw [fetch16_of_second_fault h₁' h₂']

/-- Everything `fetchDecode` can answer: the opcode fetch faults, the opcode is not admitted, the instruction takes no
operand byte, or its operand fetch answers what `fetch8` or `fetch16` does. -/
theorem fetchDecode_ok {s t : Running} {i : Instr} (h : fetchDecode s = .ok (i, t)) :
    ∃ op, memRead s s.pc = .ok op ∧
      ((primary op = some (.op i) ∧ t = { s with pc := s.pc + 1 }) ∨
       (∃ mk n, primary op = some (.d8 mk) ∧ memRead s (s.pc + 1) = .ok n ∧ i = mk n ∧ t = { s with pc := s.pc + 2 }) ∨
       ∃ mk lo hi, primary op = some (.d16 mk) ∧ memRead s (s.pc + 1) = .ok lo ∧ memRead s (s.pc + 2) = .ok hi ∧
         i = mk (wordOf hi lo) ∧ t = { s with pc := s.pc + 3 }) := by
  cases h₀ : memRead s s.pc with
  | error f => rw [fetchDecode_fault h₀] at h; cases h
  | ok op =>
    refine ⟨op, rfl, ?_⟩
    cases he : primary op with
    | none => rw [fetchDecode_unadmitted h₀ he] at h; cases h
    | some e =>
      cases e with
      | op j => rw [fetchDecode_op h₀ he] at h; cases h; exact .inl ⟨rfl, rfl⟩
      | d8 mk =>
        cases h₁ : memRead s (s.pc + 1) with
        | error f => rw [fetchDecode_d8_fault h₀ he h₁] at h; cases h
        | ok n => rw [fetchDecode_d8 h₀ he h₁] at h; cases h; exact .inr (.inl ⟨mk, n, rfl, rfl, rfl, rfl⟩)
      | d16 mk =>
        cases h₁ : memRead s (s.pc + 1) with
        | error f => rw [fetchDecode_d16_fault h₀ he h₁] at h; cases h
        | ok lo =>
          cases h₂ : memRead s (s.pc + 2) with
          | error f => rw [fetchDecode_d16_second_fault h₀ he h₁ h₂] at h; cases h
          | ok hi =>
            rw [fetchDecode_d16 h₀ he h₁ h₂] at h
            cases h
            exact .inr (.inr ⟨mk, lo, hi, rfl, rfl, rfl, rfl, rfl⟩)

/-! ### The CB prefix -/

theorem execPrefixCb_of_op {s : Running} {op2 : Byte} {o : CbOp} (h : memRead s s.pc = .ok op2)
    (ho : decodeCbOp op2 = some o) : execPrefixCb (.running s) = execCbOp o (.running { s with pc := s.pc + 1 }) := by
  unfold execPrefixCb
  simp only
  rw [fetch8_of_read h]
  simp only [ho]

theorem execPrefixCb_unadmitted {s : Running} {op2 : Byte} (h : memRead s s.pc = .ok op2)
    (ho : decodeCbOp op2 = none) : execPrefixCb (.running s) = .fault (.decodeErrorCb op2) := by
  unfold execPrefixCb
  simp only
  rw [fetch8_of_read h]
  simp only [ho, raise, finish]

theorem execPrefixCb_fault {s : Running} {f : Fault} (h : memRead s s.pc = .error f) :
    execPrefixCb (.running s) = .fault f := by
  unfold execPrefixCb
  simp only
  rw [fetch8_of_fault h]
  rfl

/-- A CB operation runs its row's own meaning. -/
theorem execCbOp_eq_exec (o : CbOp) (s : State) : execCbOp o s = exec o.toInstr s := by
  rcases o with r | ⟨b, r⟩
  · cases r <;> rfl
  · match b with
    | 0 | 1 | 2 | 3 | 4 | 5 | 6 | 7 => cases r <;> rfl

/-! ### The step -/

/-- The step of a running machine. -/
theorem step_running (s : Running) :
    step (.running s) = match fetchDecode s with
      | .error f => .fault f
      | .ok (i, s₁) => exec i (.running s₁) := rfl

/-- A faulted machine has no step. -/
@[simp] theorem step_faulted (f : Fault) : step (.faulted f) = .fault f := rfl

/-- A state is a running machine or a fault. -/
theorem State.cases (s : State) : (∃ m, s = .running m) ∨ ∃ f, s = .faulted f := by
  obtain ⟨m | f⟩ := s
  · exact .inl ⟨m, rfl⟩
  · exact .inr ⟨f, rfl⟩

/-- A step that answers a next state ran a decoded instruction. -/
theorem step_next {s t : State} (h : step s = .next t) :
    ∃ m i m₁, s = .running m ∧ fetchDecode m = .ok (i, m₁) ∧ exec i (.running m₁) = .next t := by
  obtain ⟨m, rfl⟩ | ⟨f, rfl⟩ := State.cases s
  · rw [step_running] at h
    cases hf : fetchDecode m with
    | error f => rw [hf] at h; cases h
    | ok x => rw [hf] at h; exact ⟨m, x.1, x.2, rfl, hf, h⟩
  · cases h

/-! ### Between the steps -/

theorem afterStep_of_next {s t : State} (h : step s = .next t) : afterStep s = t := by
  unfold afterStep
  rw [h]

theorem afterStep_of_fault {s : State} {f : Fault} (h : step s = .fault f) : afterStep s = .faulted f := by
  unfold afterStep
  rw [h]

@[simp] theorem State.driveLy_running (m : Running) (v : Byte) :
    (State.running m).driveLy v = .running (m.driveLy v) := rfl

@[simp] theorem drivenRun_nil (s : State) : drivenRun s [] = s := rfl

@[simp] theorem drivenRun_cons (s : State) (v : Byte) (vs : List Byte) :
    drivenRun s (v :: vs) = drivenRun (afterStep (s.driveLy v)) vs := rfl

end Sys2Proof.Machine
end

