-- ==== Sys2Proof/Laws/Bus.lean ====
section
/-! SUPPORT. The laws of the address decode: where each target's addresses lie, and which accesses fault. -/

namespace Sys2Proof.Machine

/-- Where each target's addresses lie (spec/20_memory.md R45). -/
def Region.Range : Region → Nat → Prop
  | .bootRom, n => n ≤ 0x00FF
  | .cartRom, n => 0x0100 ≤ n ∧ n ≤ 0x7FFF
  | .vram, n => 0x8000 ≤ n ∧ n ≤ 0x9FFF
  | .wram, n => 0xC000 ≤ n ∧ n ≤ 0xDFFF
  | .ppuControl, n => n = 0xFF40
  | .ppuScrollY, n => n = 0xFF42
  | .ppuLy, n => n = 0xFF44
  | .io, n => 0xFF00 ≤ n ∧ n ≤ 0xFF7F ∧ n ≠ 0xFF40 ∧ n ≠ 0xFF42 ∧ n ≠ 0xFF44
  | .hram, n => 0xFF80 ≤ n ∧ n ≤ 0xFFFE
  | .unmapped, n => (0xA000 ≤ n ∧ n ≤ 0xBFFF) ∨ (0xE000 ≤ n ∧ n ≤ 0xFEFF) ∨ 0xFFFF ≤ n

theorem region_range (n : Nat) : (region n).Range n := by
  unfold region
  iterate 11 (split; · simp only [Region.Range]; omega)
  simp only [Region.Range]
  omega

/-- The address decode is the table of R45. -/
theorem region_eq {n : Nat} {r : Region} : region n = r ↔ r.Range n := by
  constructor
  · rintro rfl
    exact region_range n
  · intro h
    have h' := region_range n
    cases hr : region n <;> rw [hr] at h' <;> cases r <;>
      first | rfl | (simp only [Region.Range] at h h'; omega)

/-- A word is a number below 65536. -/
theorem word_eq {a b : Word} : a = b ↔ a.toNat = b.toNat :=
  ⟨fun h => h ▸ rfl, BitVec.eq_of_toNat_eq⟩

/-- A write is answered exactly at the writable addresses; everywhere else it is a BusError (R42). -/
theorem memWrite_of_not_writable {s : Running} {a : Word} {v : Byte} (h : ¬ Writable a) :
    memWrite s a v = .error (.busError .write a) := by
  have hr := region_range a.toNat
  unfold memWrite
  split <;> rename_i hreg <;> rw [hreg] at hr <;> simp only [Region.Range] at hr <;>
    first | rfl | exact absurd (by omega) h

theorem writable_of_memWrite {s t : Running} {a : Word} {v : Byte} (h : memWrite s a v = .ok t) : Writable a := by
  refine Classical.byContradiction fun hn => ?_
  rw [memWrite_of_not_writable hn] at h
  cases h

/-- The only faults of a bus read (R41). -/
theorem memRead_fault {s : Running} {a : Word} {f : Fault} (h : memRead s a = .error f) :
    (f = .busError .read a ∧ Unmapped a) ∨ (f = .inputError a ∧ PastBlob s a) := by
  have hr := region_range a.toNat
  have hlt := a.isLt
  unfold memRead readBlob at h
  split at h <;> rename_i hreg <;> rw [hreg] at hr <;> simp only [Region.Range] at hr
  · split at h
    · cases h
    · next hn =>
      cases h
      rw [List.getElem?_eq_none_iff] at hn
      exact .inr ⟨rfl, .inl ⟨hr, hn⟩⟩
  · split at h
    · cases h
    · next hn =>
      cases h
      rw [List.getElem?_eq_none_iff] at hn
      exact .inr ⟨rfl, .inr ⟨hr.1, hr.2, hn⟩⟩
  all_goals cases h
  exact .inl ⟨rfl, by omega⟩

/-- A read at a readable address answers a byte (R43, R45). -/
theorem memRead_of_readable {s : Running} {a : Word} (h : Readable s a) : ∃ v, memRead s a = .ok v := by
  cases hm : memRead s a with
  | ok v => exact ⟨v, rfl⟩
  | error f =>
    rcases memRead_fault hm with ⟨-, hu⟩ | ⟨-, hp⟩ <;> exfalso <;> omega

end Sys2Proof.Machine
end

