-- ==== Sys2Proof/Laws/PerInstr.lean ====
section
/-! SUPPORT. Statements made per instruction. -/

namespace Sys2Proof.Laws

/-- The two tables between an instruction and its encoding form (spec/30_encoding.md R81) are inverse on `i`. -/
def FormInverse.Statement (i : Instr) : Prop := i.form.toInstr = i

theorem FormInverse.nop : FormInverse.Statement .nop := rfl
theorem FormInverse.ldBcD16 (n : Word) : FormInverse.Statement (.ldBcD16 n) := rfl
theorem FormInverse.incBc : FormInverse.Statement .incBc := rfl
theorem FormInverse.incB : FormInverse.Statement .incB := rfl
theorem FormInverse.decB : FormInverse.Statement .decB := rfl
theorem FormInverse.ldBD8 (n : Byte) : FormInverse.Statement (.ldBD8 n) := rfl
theorem FormInverse.ldAIndBc : FormInverse.Statement .ldAIndBc := rfl
theorem FormInverse.decBc : FormInverse.Statement .decBc := rfl
theorem FormInverse.incC : FormInverse.Statement .incC := rfl
theorem FormInverse.decC : FormInverse.Statement .decC := rfl
theorem FormInverse.ldCD8 (n : Byte) : FormInverse.Statement (.ldCD8 n) := rfl
theorem FormInverse.ldDeD16 (n : Word) : FormInverse.Statement (.ldDeD16 n) := rfl
theorem FormInverse.incDe : FormInverse.Statement .incDe := rfl
theorem FormInverse.incD : FormInverse.Statement .incD := rfl
theorem FormInverse.decD : FormInverse.Statement .decD := rfl
theorem FormInverse.ldDD8 (n : Byte) : FormInverse.Statement (.ldDD8 n) := rfl
theorem FormInverse.rla : FormInverse.Statement .rla := rfl
theorem FormInverse.jrE8 (e : Byte) : FormInverse.Statement (.jrE8 e) := rfl
theorem FormInverse.ldAIndDe : FormInverse.Statement .ldAIndDe := rfl
theorem FormInverse.decDe : FormInverse.Statement .decDe := rfl
theorem FormInverse.incE : FormInverse.Statement .incE := rfl
theorem FormInverse.decE : FormInverse.Statement .decE := rfl
theorem FormInverse.ldED8 (n : Byte) : FormInverse.Statement (.ldED8 n) := rfl
theorem FormInverse.jrNzE8 (e : Byte) : FormInverse.Statement (.jrNzE8 e) := rfl
theorem FormInverse.ldHlD16 (n : Word) : FormInverse.Statement (.ldHlD16 n) := rfl
theorem FormInverse.ldIndHlIncA : FormInverse.Statement .ldIndHlIncA := rfl
theorem FormInverse.incHl : FormInverse.Statement .incHl := rfl
theorem FormInverse.incH : FormInverse.Statement .incH := rfl
theorem FormInverse.decH : FormInverse.Statement .decH := rfl
theorem FormInverse.ldHD8 (n : Byte) : FormInverse.Statement (.ldHD8 n) := rfl
theorem FormInverse.jrZE8 (e : Byte) : FormInverse.Statement (.jrZE8 e) := rfl
theorem FormInverse.decHl : FormInverse.Statement .decHl := rfl
theorem FormInverse.incL : FormInverse.Statement .incL := rfl
theorem FormInverse.decL : FormInverse.Statement .decL := rfl
theorem FormInverse.ldLD8 (n : Byte) : FormInverse.Statement (.ldLD8 n) := rfl
theorem FormInverse.jrNcE8 (e : Byte) : FormInverse.Statement (.jrNcE8 e) := rfl
theorem FormInverse.ldSpD16 (n : Word) : FormInverse.Statement (.ldSpD16 n) := rfl
theorem FormInverse.ldIndHlDecA : FormInverse.Statement .ldIndHlDecA := rfl
theorem FormInverse.incSp : FormInverse.Statement .incSp := rfl
theorem FormInverse.jrCE8 (e : Byte) : FormInverse.Statement (.jrCE8 e) := rfl
theorem FormInverse.decSp : FormInverse.Statement .decSp := rfl
theorem FormInverse.incA : FormInverse.Statement .incA := rfl
theorem FormInverse.decA : FormInverse.Statement .decA := rfl
theorem FormInverse.ldAD8 (n : Byte) : FormInverse.Statement (.ldAD8 n) := rfl
theorem FormInverse.ldBB : FormInverse.Statement .ldBB := rfl
theorem FormInverse.ldBC : FormInverse.Statement .ldBC := rfl
theorem FormInverse.ldBD : FormInverse.Statement .ldBD := rfl
theorem FormInverse.ldBE : FormInverse.Statement .ldBE := rfl
theorem FormInverse.ldBH : FormInverse.Statement .ldBH := rfl
theorem FormInverse.ldBL : FormInverse.Statement .ldBL := rfl
theorem FormInverse.ldBIndHl : FormInverse.Statement .ldBIndHl := rfl
theorem FormInverse.ldBA : FormInverse.Statement .ldBA := rfl
theorem FormInverse.ldCB : FormInverse.Statement .ldCB := rfl
theorem FormInverse.ldCC : FormInverse.Statement .ldCC := rfl
theorem FormInverse.ldCD : FormInverse.Statement .ldCD := rfl
theorem FormInverse.ldCE : FormInverse.Statement .ldCE := rfl
theorem FormInverse.ldCH : FormInverse.Statement .ldCH := rfl
theorem FormInverse.ldCL : FormInverse.Statement .ldCL := rfl
theorem FormInverse.ldCIndHl : FormInverse.Statement .ldCIndHl := rfl
theorem FormInverse.ldCA : FormInverse.Statement .ldCA := rfl
theorem FormInverse.ldDB : FormInverse.Statement .ldDB := rfl
theorem FormInverse.ldDC : FormInverse.Statement .ldDC := rfl
theorem FormInverse.ldDD : FormInverse.Statement .ldDD := rfl
theorem FormInverse.ldDE : FormInverse.Statement .ldDE := rfl
theorem FormInverse.ldDH : FormInverse.Statement .ldDH := rfl
theorem FormInverse.ldDL : FormInverse.Statement .ldDL := rfl
theorem FormInverse.ldDIndHl : FormInverse.Statement .ldDIndHl := rfl
theorem FormInverse.ldDA : FormInverse.Statement .ldDA := rfl
theorem FormInverse.ldEB : FormInverse.Statement .ldEB := rfl
theorem FormInverse.ldEC : FormInverse.Statement .ldEC := rfl
theorem FormInverse.ldED : FormInverse.Statement .ldED := rfl
theorem FormInverse.ldEE : FormInverse.Statement .ldEE := rfl
theorem FormInverse.ldEH : FormInverse.Statement .ldEH := rfl
theorem FormInverse.ldEL : FormInverse.Statement .ldEL := rfl
theorem FormInverse.ldEIndHl : FormInverse.Statement .ldEIndHl := rfl
theorem FormInverse.ldEA : FormInverse.Statement .ldEA := rfl
theorem FormInverse.ldHB : FormInverse.Statement .ldHB := rfl
theorem FormInverse.ldHC : FormInverse.Statement .ldHC := rfl
theorem FormInverse.ldHD : FormInverse.Statement .ldHD := rfl
theorem FormInverse.ldHE : FormInverse.Statement .ldHE := rfl
theorem FormInverse.ldHH : FormInverse.Statement .ldHH := rfl
theorem FormInverse.ldHL : FormInverse.Statement .ldHL := rfl
theorem FormInverse.ldHIndHl : FormInverse.Statement .ldHIndHl := rfl
theorem FormInverse.ldHA : FormInverse.Statement .ldHA := rfl
theorem FormInverse.ldLB : FormInverse.Statement .ldLB := rfl
theorem FormInverse.ldLC : FormInverse.Statement .ldLC := rfl
theorem FormInverse.ldLD : FormInverse.Statement .ldLD := rfl
theorem FormInverse.ldLE : FormInverse.Statement .ldLE := rfl
theorem FormInverse.ldLH : FormInverse.Statement .ldLH := rfl
theorem FormInverse.ldLL : FormInverse.Statement .ldLL := rfl
theorem FormInverse.ldLIndHl : FormInverse.Statement .ldLIndHl := rfl
theorem FormInverse.ldLA : FormInverse.Statement .ldLA := rfl
theorem FormInverse.ldAB : FormInverse.Statement .ldAB := rfl
theorem FormInverse.ldAC : FormInverse.Statement .ldAC := rfl
theorem FormInverse.ldAD : FormInverse.Statement .ldAD := rfl
theorem FormInverse.ldAE : FormInverse.Statement .ldAE := rfl
theorem FormInverse.ldAH : FormInverse.Statement .ldAH := rfl
theorem FormInverse.ldAL : FormInverse.Statement .ldAL := rfl
theorem FormInverse.ldAIndHl : FormInverse.Statement .ldAIndHl := rfl
theorem FormInverse.ldAA : FormInverse.Statement .ldAA := rfl
theorem FormInverse.xorA : FormInverse.Statement .xorA := rfl
theorem FormInverse.cpB : FormInverse.Statement .cpB := rfl
theorem FormInverse.cpC : FormInverse.Statement .cpC := rfl
theorem FormInverse.cpD : FormInverse.Statement .cpD := rfl
theorem FormInverse.cpE : FormInverse.Statement .cpE := rfl
theorem FormInverse.cpH : FormInverse.Statement .cpH := rfl
theorem FormInverse.cpL : FormInverse.Statement .cpL := rfl
theorem FormInverse.cpIndHl : FormInverse.Statement .cpIndHl := rfl
theorem FormInverse.cpA : FormInverse.Statement .cpA := rfl
theorem FormInverse.popBc : FormInverse.Statement .popBc := rfl
theorem FormInverse.pushBc : FormInverse.Statement .pushBc := rfl
theorem FormInverse.ret : FormInverse.Statement .ret := rfl
theorem FormInverse.prefixCb : FormInverse.Statement .prefixCb := rfl
theorem FormInverse.callA16 (n : Word) : FormInverse.Statement (.callA16 n) := rfl
theorem FormInverse.popDe : FormInverse.Statement .popDe := rfl
theorem FormInverse.pushDe : FormInverse.Statement .pushDe := rfl
theorem FormInverse.ldhIndA8A (n : Byte) : FormInverse.Statement (.ldhIndA8A n) := rfl
theorem FormInverse.popHl : FormInverse.Statement .popHl := rfl
theorem FormInverse.ldIndCA : FormInverse.Statement .ldIndCA := rfl
theorem FormInverse.pushHl : FormInverse.Statement .pushHl := rfl
theorem FormInverse.ldIndA16A (n : Word) : FormInverse.Statement (.ldIndA16A n) := rfl
theorem FormInverse.popAf : FormInverse.Statement .popAf := rfl
theorem FormInverse.pushAf : FormInverse.Statement .pushAf := rfl
theorem FormInverse.ldSpHl : FormInverse.Statement .ldSpHl := rfl
theorem FormInverse.cpD8 (n : Byte) : FormInverse.Statement (.cpD8 n) := rfl
theorem FormInverse.rlB : FormInverse.Statement .rlB := rfl
theorem FormInverse.rlC : FormInverse.Statement .rlC := rfl
theorem FormInverse.rlD : FormInverse.Statement .rlD := rfl
theorem FormInverse.rlE : FormInverse.Statement .rlE := rfl
theorem FormInverse.rlH : FormInverse.Statement .rlH := rfl
theorem FormInverse.rlL : FormInverse.Statement .rlL := rfl
theorem FormInverse.rlA : FormInverse.Statement .rlA := rfl
theorem FormInverse.bit0B : FormInverse.Statement .bit0B := rfl
theorem FormInverse.bit0C : FormInverse.Statement .bit0C := rfl
theorem FormInverse.bit0D : FormInverse.Statement .bit0D := rfl
theorem FormInverse.bit0E : FormInverse.Statement .bit0E := rfl
theorem FormInverse.bit0H : FormInverse.Statement .bit0H := rfl
theorem FormInverse.bit0L : FormInverse.Statement .bit0L := rfl
theorem FormInverse.bit0A : FormInverse.Statement .bit0A := rfl
theorem FormInverse.bit1B : FormInverse.Statement .bit1B := rfl
theorem FormInverse.bit1C : FormInverse.Statement .bit1C := rfl
theorem FormInverse.bit1D : FormInverse.Statement .bit1D := rfl
theorem FormInverse.bit1E : FormInverse.Statement .bit1E := rfl
theorem FormInverse.bit1H : FormInverse.Statement .bit1H := rfl
theorem FormInverse.bit1L : FormInverse.Statement .bit1L := rfl
theorem FormInverse.bit1A : FormInverse.Statement .bit1A := rfl
theorem FormInverse.bit2B : FormInverse.Statement .bit2B := rfl
theorem FormInverse.bit2C : FormInverse.Statement .bit2C := rfl
theorem FormInverse.bit2D : FormInverse.Statement .bit2D := rfl
theorem FormInverse.bit2E : FormInverse.Statement .bit2E := rfl
theorem FormInverse.bit2H : FormInverse.Statement .bit2H := rfl
theorem FormInverse.bit2L : FormInverse.Statement .bit2L := rfl
theorem FormInverse.bit2A : FormInverse.Statement .bit2A := rfl
theorem FormInverse.bit3B : FormInverse.Statement .bit3B := rfl
theorem FormInverse.bit3C : FormInverse.Statement .bit3C := rfl
theorem FormInverse.bit3D : FormInverse.Statement .bit3D := rfl
theorem FormInverse.bit3E : FormInverse.Statement .bit3E := rfl
theorem FormInverse.bit3H : FormInverse.Statement .bit3H := rfl
theorem FormInverse.bit3L : FormInverse.Statement .bit3L := rfl
theorem FormInverse.bit3A : FormInverse.Statement .bit3A := rfl
theorem FormInverse.bit4B : FormInverse.Statement .bit4B := rfl
theorem FormInverse.bit4C : FormInverse.Statement .bit4C := rfl
theorem FormInverse.bit4D : FormInverse.Statement .bit4D := rfl
theorem FormInverse.bit4E : FormInverse.Statement .bit4E := rfl
theorem FormInverse.bit4H : FormInverse.Statement .bit4H := rfl
theorem FormInverse.bit4L : FormInverse.Statement .bit4L := rfl
theorem FormInverse.bit4A : FormInverse.Statement .bit4A := rfl
theorem FormInverse.bit5B : FormInverse.Statement .bit5B := rfl
theorem FormInverse.bit5C : FormInverse.Statement .bit5C := rfl
theorem FormInverse.bit5D : FormInverse.Statement .bit5D := rfl
theorem FormInverse.bit5E : FormInverse.Statement .bit5E := rfl
theorem FormInverse.bit5H : FormInverse.Statement .bit5H := rfl
theorem FormInverse.bit5L : FormInverse.Statement .bit5L := rfl
theorem FormInverse.bit5A : FormInverse.Statement .bit5A := rfl
theorem FormInverse.bit6B : FormInverse.Statement .bit6B := rfl
theorem FormInverse.bit6C : FormInverse.Statement .bit6C := rfl
theorem FormInverse.bit6D : FormInverse.Statement .bit6D := rfl
theorem FormInverse.bit6E : FormInverse.Statement .bit6E := rfl
theorem FormInverse.bit6H : FormInverse.Statement .bit6H := rfl
theorem FormInverse.bit6L : FormInverse.Statement .bit6L := rfl
theorem FormInverse.bit6A : FormInverse.Statement .bit6A := rfl
theorem FormInverse.bit7B : FormInverse.Statement .bit7B := rfl
theorem FormInverse.bit7C : FormInverse.Statement .bit7C := rfl
theorem FormInverse.bit7D : FormInverse.Statement .bit7D := rfl
theorem FormInverse.bit7E : FormInverse.Statement .bit7E := rfl
theorem FormInverse.bit7H : FormInverse.Statement .bit7H := rfl
theorem FormInverse.bit7L : FormInverse.Statement .bit7L := rfl
theorem FormInverse.bit7A : FormInverse.Statement .bit7A := rfl

end Sys2Proof.Laws
end

