-- ==== Sys2Proof/Laws/Exec.lean ====
section
/-! SUPPORT. Every arm of `exec` is one shared operation, said once per encoding form (`exec_eq`), so that a proof about
all 188 arms is a case analysis over the 30 forms. -/

namespace Sys2Proof.Machine

/-- The shared operation of a CB operation. -/
def cbOperation : CbOp → Running → Except Fault Running
  | .rl r => rotateReg r
  | .bit b r => bitTest b r

/-- `PREFIX CB`: the second byte is fetched and its operation runs. -/
def prefixOperation (s : Running) : Except Fault Running :=
  match fetch8 s with
  | .error f => .error f
  | .ok (op2, s₁) =>
    match decodeCbOp op2 with
    | none => .error (.decodeErrorCb op2)
    | some o => cbOperation o s₁

/-- The shared operation of each form. -/
def formOperation : Form → Running → Except Fault Running
  | .nop => .ok
  | .ldRegReg dst src => load (.reg8 dst) (.reg8 src)
  | .ldRegIndHl dst => load (.reg8 dst) (.indirect .hl)
  | .ldRegImm dst n => load (.reg8 dst) (.imm8 n)
  | .ldAIndBc => load (.reg8 .a) (.indirect .bc)
  | .ldAIndDe => load (.reg8 .a) (.indirect .de)
  | .ldPairImm p n => load (.reg16 (pairSpView p)) (.imm16 n)
  | .ldSpHl => load (.reg16 .sp) (.reg16 .hl)
  | .ldhIndImmA n => load (.pagedImm n) (.reg8 .a)
  | .ldIndCA => load .pagedC (.reg8 .a)
  | .ldIndHlIncA => load .indirectHlInc (.reg8 .a)
  | .ldIndHlDecA => load .indirectHlDec (.reg8 .a)
  | .ldIndAbsA n => load (.abs n) (.reg8 .a)
  | .incReg r => incReg r
  | .decReg r => decReg r
  | .incPair p => incPair (pairSpView p)
  | .decPair p => decPair (pairSpView p)
  | .xorA => xorA
  | .cpReg r => compareAcc (.reg8 r)
  | .cpIndHl => compareAcc (.indirect .hl)
  | .cpImm n => compareAcc (.imm8 n)
  | .rla => rotateAcc
  | .jr e => jump e
  | .jrCond cc e => jumpIf cc e
  | .call n => call n
  | .ret => ret
  | .push q => push (pairAfView q)
  | .pop q => pop (pairAfView q)
  | .prefixCb => prefixOperation
  | .cb o => cbOperation o

theorem execCbOp_eq (o : CbOp) (s : State) : execCbOp o s = run (cbOperation o) s := by
  rcases o with r | ⟨b, r⟩
  · cases r <;> rfl
  · match b with
    | 0 | 1 | 2 | 3 | 4 | 5 | 6 | 7 => cases r <;> rfl

theorem execPrefixCb_eq (s : State) : execPrefixCb s = run prefixOperation s := by
  obtain ⟨m, rfl⟩ | ⟨f, rfl⟩ := State.cases s
  · rw [run_running]
    unfold execPrefixCb prefixOperation
    simp only
    generalize fetch8 m = r
    rcases r with f | ⟨op2, m₁⟩
    · rfl
    · simp only
      generalize decodeCbOp op2 = o
      cases o with
      | none => rfl
      | some o => exact execCbOp_eq o _
  · rfl

/-- Every arm of `exec` is the shared operation of its instruction's form. -/
theorem exec_eq (i : Instr) (s : State) : exec i s = run (formOperation i.form) s := by
  cases i
  case prefixCb => exact execPrefixCb_eq s
  all_goals rfl

/-- The two tables of the encoding are inverse the other way too. -/
theorem form_toInstr (x : Form) : x.toInstr.form = x := by
  cases x
  case ldRegReg dst src => cases dst <;> cases src <;> rfl
  case cb o =>
    rcases o with r | ⟨b, r⟩
    · cases r <;> rfl
    · match b with
      | 0 | 1 | 2 | 3 | 4 | 5 | 6 | 7 => cases r <;> rfl
  case ldRegIndHl r => cases r <;> rfl
  case ldRegImm r n => cases r <;> rfl
  case ldPairImm p n => cases p <;> rfl
  case incReg r => cases r <;> rfl
  case decReg r => cases r <;> rfl
  case incPair p => cases p <;> rfl
  case decPair p => cases p <;> rfl
  case cpReg r => cases r <;> rfl
  case jrCond cc e => cases cc <;> rfl
  case push q => cases q <;> rfl
  case pop q => cases q <;> rfl
  all_goals rfl

/-- The meaning of the instruction of a form. -/
theorem exec_form (x : Form) (s : Running) : exec x.toInstr (.running s) = finish (formOperation x s) := by
  rw [exec_eq, form_toInstr, run_running]

/-- An instruction that answers a next state ran its operation to the end. -/
theorem exec_next {i : Instr} {s : Running} {t : State} :
    exec i (.running s) = .next t ↔ ∃ m, t = .running m ∧ formOperation i.form s = .ok m := by
  rw [exec_eq, run_running, finish_next]

/-- An instruction that faults has an operation that raised. -/
theorem exec_fault {i : Instr} {s : Running} {f : Fault} :
    exec i (.running s) = .fault f ↔ formOperation i.form s = .error f := by
  rw [exec_eq, run_running, finish_fault]

/-- No instruction executes in a faulted machine. -/
theorem exec_faulted (i : Instr) (f : Fault) : exec i (.faulted f) = .fault f := by
  rw [exec_eq, run_faulted]

end Sys2Proof.Machine
end

