-- ==== Sys2Proof/Tests/Slice0.lean ====
section
/-! SUPPORT. The model's own tests: ill-formed byte sequences, words written out from spec/30_encoding.md R81 and R85,
single steps whose expected values are vectors of spec/95_test_vectors.md (named in each comment), and the witnesses
of the hypotheses of the statements in Certificates/Slice0/Obligations.lean. -/

namespace Sys2Proof.Tests

open Sys2Proof.Machine

/-- The constructed machine with a boot-ROM image. -/
def boot (code : List Byte) : Running := { Running.reset with cfg := { Config.standard with boot := code } }

/-- An instruction's meaning in a running machine, and the step of one. -/
def runs (i : Instr) (m : Running) : Out := exec i (.running m)
def steps (m : Running) : Out := step (.running m)

/-- What can be read of the machine after an instruction that completes. -/
def after {α : Type} (o : Out) (f : Running → α) : Option α := ((next? o).bind inspect).map f

/-- The fault an instruction ends in. -/
def faultOf : Out → Option Fault
  | .next _ => none
  | .fault f => some f
  | .refused _ => none

/-- The byte a bus read answers. -/
def byteOf (s : Running) (a : Word) : Option Byte :=
  match memRead s a with
  | .ok v => some v
  | .error _ => none

/-! ### WellFormed refuses -/

theorem test_wf_empty : wellFormedBytes [] = false := by decide
theorem test_wf_unadmitted : wellFormedBytes [0xD3] = false := by decide
theorem test_wf_operand_missing : wellFormedBytes [0x06] = false := by decide
theorem test_wf_second_operand_missing : wellFormedBytes [0x21, 0x34] = false := by decide
theorem test_wf_byte_too_many : wellFormedBytes [0x00, 0x00] = false := by decide
theorem test_wf_cb_alone : wellFormedBytes [0xCB] = false := by decide
theorem test_wf_cb_unadmitted : wellFormedBytes [0xCB, 0x46] = false := by decide
theorem test_wf_cb_byte_too_many : wellFormedBytes [0xCB, 0x7C, 0x00] = false := by decide
theorem test_wf_admits : wellFormedBytes [0xCB, 0x7C] = true ∧ wellFormedBytes [0x21, 0x34, 0x12] = true := by decide

/-! ### Decoding, bit by bit from R81 and R85 -/

theorem test_decode_nop : decodeWhole [0b00000000] = .ok (.nop, []) := rfl
theorem test_decode_ld_r_r : decodeWhole [0b01100101] = .ok (.ldHL, []) := rfl
theorem test_decode_ld_r_d8 : decodeWhole [0b00111110, 0x80] = .ok (.ldAD8 0x80, []) := rfl
theorem test_decode_ld_r_hl : decodeWhole [0b01101110] = .ok (.ldLIndHl, []) := rfl
theorem test_decode_ld_a_bc_de : decodeWhole [0b00001010] = .ok (.ldAIndBc, []) ∧
    decodeWhole [0b00011010] = .ok (.ldAIndDe, []) := ⟨rfl, rfl⟩
theorem test_decode_ld_rr_d16 : decodeWhole [0b00110001, 0xFE, 0xFF] = .ok (.ldSpD16 0xFFFE, []) := rfl
theorem test_decode_ld_sp_hl : decodeWhole [0b11111001] = .ok (.ldSpHl, []) := rfl
theorem test_decode_ldh : decodeWhole [0b11100000, 0x42] = .ok (.ldhIndA8A 0x42, []) := rfl
theorem test_decode_ld_c_a : decodeWhole [0b11100010] = .ok (.ldIndCA, []) := rfl
theorem test_decode_ld_hl_inc_dec : decodeWhole [0b00100010] = .ok (.ldIndHlIncA, []) ∧
    decodeWhole [0b00110010] = .ok (.ldIndHlDecA, []) := ⟨rfl, rfl⟩
theorem test_decode_ld_a16 : decodeWhole [0b11101010, 0x10, 0x99] = .ok (.ldIndA16A 0x9910, []) := rfl
theorem test_decode_inc_dec : decodeWhole [0b00101100] = .ok (.incL, []) ∧
    decodeWhole [0b00100101] = .ok (.decH, []) := ⟨rfl, rfl⟩
theorem test_decode_inc_dec_pair : decodeWhole [0b00010011] = .ok (.incDe, []) ∧
    decodeWhole [0b00101011] = .ok (.decHl, []) := ⟨rfl, rfl⟩
theorem test_decode_xor : decodeWhole [0b10101111] = .ok (.xorA, []) := rfl
theorem test_decode_cp : decodeWhole [0b10111001] = .ok (.cpC, []) ∧ decodeWhole [0b10111110] = .ok (.cpIndHl, []) ∧
    decodeWhole [0b11111110, 0x34] = .ok (.cpD8 0x34, []) := ⟨rfl, rfl, rfl⟩
theorem test_decode_rla : decodeWhole [0b00010111] = .ok (.rla, []) := rfl
theorem test_decode_jr : decodeWhole [0b00011000, 0xFE] = .ok (.jrE8 0xFE, []) ∧
    decodeWhole [0b00110000, 0x05] = .ok (.jrNcE8 0x05, []) := ⟨rfl, rfl⟩
theorem test_decode_call_ret : decodeWhole [0b11001101, 0x95, 0x00] = .ok (.callA16 0x0095, []) ∧
    decodeWhole [0b11001001] = .ok (.ret, []) := ⟨rfl, rfl⟩
theorem test_decode_push_pop : decodeWhole [0b11010101] = .ok (.pushDe, []) ∧
    decodeWhole [0b11110001] = .ok (.popAf, []) := ⟨rfl, rfl⟩
theorem test_decode_rl : decodeWhole [0b11001011, 0b00010111] = .ok (.rlA, []) := rfl
theorem test_decode_bit : decodeWhole [0b11001011, 0b01011010] = .ok (.bit3D, []) := rfl

/-- R90: 0x76 in the load block, 0x36 and 0x77 beside it, and a far cell. -/
theorem test_decode_unadmitted : decodeWhole [0x76] = .error (.primary 0x76) ∧
    decodeWhole [0x77, 0x00] = .error (.primary 0x77) ∧ decodeWhole [0x36, 0x00] = .error (.primary 0x36) ∧
    decodeWhole [0xFF] = .error (.primary 0xFF) := ⟨rfl, rfl, rfl, rfl⟩
/-- R91. -/
theorem test_decode_cb_unadmitted : decodeWhole [0xCB, 0x46] = .error (.cb 0x46) ∧
    decodeWhole [0xCB, 0x16] = .error (.cb 0x16) ∧ decodeWhole [0xCB, 0xC0] = .error (.cb 0xC0) := ⟨rfl, rfl, rfl⟩
/-- The opcode table's numbering (log entry 6). -/
theorem test_decode_table_words : decodeTableWord 16 0xCB7C = some .bit7H ∧ decodeTableWord 16 0x7CCB = some .bit7H ∧
    decodeTableWord 8 0xCB = some .prefixCb ∧ decodeTableWord 24 0x1234_21 = some (.ldHlD16 0x1234) ∧
    decodeTableWord 16 0x80_3E = some (.ldAD8 0x80) ∧ decodeTableWord 8 0x31 = some (.ldSpD16 0x0000) ∧
    decodeTableWord 8 0xD3 = none := ⟨rfl, rfl, rfl, rfl, rfl, rfl, rfl⟩

/-- The word placed by `withFetchWord` is what the step after reset runs. -/
theorem test_with_fetch_word : after (step (State.reset.withFetchWord 24 0x1234_21)) (fun s => (s.h, s.l, s.pc))
    = some (0x12, 0x34, 3) := by decide
/-- A CB row's word, numbered 0xCB7C, runs as the pair: H is 0, so BIT 7,H sets ZERO and HALF_CARRY. -/
theorem test_with_fetch_word_cb : after (step (State.reset.withFetchWord 16 0xCB7C)) (fun s => (s.f, s.pc))
    = some (0xA0, 2) := by decide

/-! ### Single steps: NOP and loads (2.1) -/

/-- S9. -/
theorem test_nop : steps (boot [0x00]) = .next (.running { boot [0x00] with pc := 1 }) := rfl
/-- L-2. -/
theorem test_ld_a_b : after (runs .ldAB { Running.reset with b := 0x42, f := 0xF0 }) (fun s => (s.a, s.b, s.f))
    = some (0x42, 0x42, 0xF0) := by decide
/-- L-4. -/
theorem test_ld_h_l : after (runs .ldHL { Running.reset with h := 0x12, l := 0x34 }) (fun s => (s.h, s.l))
    = some (0x34, 0x34) := by decide
/-- L-5. -/
theorem test_ld_a_d8 : after (steps (boot [0x3E, 0x80])) (fun s => (s.a, s.pc)) = some (0x80, 2) := by decide
/-- L-8: the address is taken from the old HL. -/
theorem test_ld_h_hl : after (runs .ldHIndHl { Running.reset with h := 0xC0, mem := [(0xC000, 0x80)] })
    (fun s => (s.h, s.l)) = some (0x80, 0x00) := by decide
/-- L-11. -/
theorem test_ld_a_hl_unmapped : faultOf (runs .ldAIndHl { Running.reset with h := 0xA0 })
    = some (.busError .read 0xA000) := by decide
/-- L-12, L-13: the index is the address less CART_REBASE. -/
theorem test_ld_a_bc : after (runs .ldAIndBc { Running.reset with
    b := 0x01, c := 0x04, cfg := { Config.standard with cart := [0, 1, 2, 3, 0xCE] } }) Running.a = some 0xCE := by decide
theorem test_ld_a_bc_past_blob : faultOf (runs .ldAIndBc { Running.reset with
    b := 0x01, c := 0x04, cfg := { Config.standard with cart := [0, 1, 2, 3] } }) = some (.inputError 0x0104) := by decide
/-- L-14, with a shorter image. -/
theorem test_ld_a_de : after (runs .ldAIndDe { boot [1, 0xDE] with e := 1 }) Running.a = some 0xDE := by decide
/-- L-15. -/
theorem test_ld_bc_d16 : after (steps (boot [0x01, 0xFF, 0x00])) (fun s => (s.b, s.c)) = some (0x00, 0xFF) := by decide
/-- L-18. -/
theorem test_ld_sp_hl : after (runs .ldSpHl { Running.reset with h := 0xDF, l := 0xFF }) Running.sp = some 0xDFFF := by
  decide
/-- L-19: the PPU byte, not the IO slot it shadows. -/
theorem test_ldh_scroll_y : after (runs (.ldhIndA8A 0x42) { Running.reset with a := 0x64 })
    (fun s => (s.scrollY, ioAt s 0x42)) = some (0x64, 0x00) := by decide
/-- L-21: 0xFF43 is plain IO; the scroll-X byte is not on the bus. -/
theorem test_ldh_ff43 : after (runs (.ldhIndA8A 0x43) { Running.reset with a := 0x07 })
    (fun s => (ioAt s 0x43, s.scrollX)) = some (0x07, 0x00) := by decide
/-- L-24. -/
theorem test_ld_c_a : after (runs .ldIndCA { Running.reset with c := 0x11, a := 0x80 }) (fun s => ioAt s 0x11)
    = some 0x80 := by decide
/-- L-27: HL moves although the new HL is unmapped. -/
theorem test_ld_hl_inc : after (runs .ldIndHlIncA { Running.reset with h := 0x9F, l := 0xFF, a := 0x01 })
    (fun s => (vramAt s 0x1FFF, s.h, s.l)) = some (0x01, 0xA0, 0x00) := by decide
/-- L-29, with the fill 0xFF so that the store of 0 is seen. -/
theorem test_ld_hl_dec : after (runs .ldIndHlDecA { Running.reset with
    h := 0x80, cfg := { Config.standard with vramFill := .ones } }) (fun s => (vramAt s 0, s.h, s.l))
    = some (0x00, 0x7F, 0xFF) := by decide
/-- L-31 and L-32. -/
theorem test_ld_a16 : after (steps { boot [0xEA, 0x10, 0x99] with a := 0x19 }) (fun s => (vramAt s 0x1910, s.pc))
    = some (0x19, 3) := by decide
theorem test_ld_a16_rom : faultOf (steps (boot [0xEA, 0x00, 0x01])) = some (.busError .write 0x0100) := by decide

/-! ### Arithmetic (2.2 to 2.7) -/

/-- 2.2: 0xFF with F = 0xF0. -/
theorem test_inc : after (runs .incA { Running.reset with a := 0xFF, f := 0xF0 }) (fun s => (s.a, s.f))
    = some (0x00, 0xB0) := by decide
/-- 2.2: 0x10 with F = 0x00. -/
theorem test_dec : after (runs .decC { Running.reset with c := 0x10 }) (fun s => (s.c, s.f)) = some (0x0F, 0x60) := by
  decide
/-- W-3: no flag. -/
theorem test_inc_hl : after (runs .incHl { Running.reset with h := 0xFF, l := 0xFF }) (fun s => (s.h, s.l, s.f))
    = some (0x00, 0x00, 0x00) := by decide
/-- W-8. -/
theorem test_dec_sp : after (runs .decSp { Running.reset with f := 0xF0 }) (fun s => (s.sp, s.f))
    = some (0xFFFF, 0xF0) := by decide
/-- 2.4. -/
theorem test_xor : after (runs .xorA { Running.reset with a := 0xFF, f := 0x70 }) (fun s => (s.a, s.f))
    = some (0x00, 0x80) := by decide
/-- 2.5: 0x10 against 0x01, and 0x3C against 0x40. -/
theorem test_cp_half : after (runs .cpB { Running.reset with a := 0x10, b := 0x01 }) (fun s => (s.a, s.f))
    = some (0x10, 0x60) := by decide
theorem test_cp_carry : after (runs (.cpD8 0x40) { Running.reset with a := 0x3C }) Running.f = some 0x50 := by decide
/-- 2.6: 0xCE with F = 0x10, and 0x00 with F = 0x80 under each value of RLA_ZERO. -/
theorem test_rla : after (runs .rla { Running.reset with a := 0xCE, f := 0x10 }) (fun s => (s.a, s.f))
    = some (0x9D, 0x10) := by decide
theorem test_rla_preserve : after (runs .rla { Running.reset with
    a := 0x55, f := 0x80, cfg := { Config.standard with rlaZero := .preserve } }) (fun s => (s.a, s.f))
    = some (0xAA, 0x80) := by decide
/-- 2.6: 0x80 with F = 0x00. -/
theorem test_rl : after (runs .rlC { Running.reset with c := 0x80 }) (fun s => (s.c, s.f)) = some (0x00, 0x90) := by
  decide
/-- S12 (the source's case) and a clear bit. -/
theorem test_bit_7_h : after (steps { boot [0xCB, 0x7C] with h := 0x80, f := 0x80 }) (fun s => (s.h, s.f, s.pc))
    = some (0x80, 0x20, 2) := by decide
theorem test_bit_3_e : after (runs .bit3E { Running.reset with e := 0xF7, f := 0x50 }) Running.f = some 0xB0 := by decide

/-! ### Control and stack (2.8, 2.9) -/

/-- 2.8: `a` = 0x0000, `e8` = 0xFB, wrapping. -/
theorem test_jr_back : after (steps (boot [0x18, 0xFB])) Running.pc = some 0xFFFD := by decide
/-- 2.8: NC with F = 0xE0 is taken, Z with F = 0x00 is not. -/
theorem test_jr_nc : after (steps { boot [0x30, 0x05] with f := 0xE0 }) Running.pc = some 0x0007 := by decide
theorem test_jr_z_not_taken : after (steps (boot [0x28, 0x05])) Running.pc = some 0x0002 := by decide
/-- K-1, the call at 0x0000. -/
theorem test_call : after (steps { boot [0xCD, 0x95, 0x00] with sp := 0xFFFE })
    (fun s => (byteOf s 0xFFFD, byteOf s 0xFFFC, s.sp, s.pc)) = some (some 0x00, some 0x03, 0xFFFC, 0x0095) := by decide
/-- K-3 and K-5: the first and the second push. -/
theorem test_call_faults : faultOf (steps (boot [0xCD, 0x05, 0x00])) = some (.busError .write 0xFFFF) ∧
    faultOf (steps { boot [0xCD, 0x00, 0xC0] with sp := 0xC001 }) = some (.busError .write 0xBFFF) := by decide
/-- K-2 and K-6. -/
theorem test_ret : after (runs .ret { Running.reset with sp := 0xFFFC, mem := [(0xFFFC, 0x2B)] }) (fun s => (s.pc, s.sp))
    = some (0x002B, 0xFFFE) := by decide
theorem test_ret_fault : faultOf (runs .ret { Running.reset with sp := 0xFFFE }) = some (.busError .read 0xFFFF) := by
  decide
/-- K-8 and K-11. -/
theorem test_push : after (runs .pushBc { Running.reset with b := 0x04, c := 0xCE, sp := 0xFFFC })
    (fun s => (byteOf s 0xFFFB, byteOf s 0xFFFA, s.sp)) = some (some 0x04, some 0xCE, 0xFFFA) := by decide
theorem test_push_fault : faultOf (runs .pushBc { Running.reset with sp := 0xFF46 }) = some (.busError .write 0xFF44) := by
  decide
/-- K-12. -/
theorem test_pop : after (runs .popDe { Running.reset with sp := 0xFFFA, mem := [(0xFFFA, 0xCE), (0xFFFB, 0x04)] })
    (fun s => (s.d, s.e, s.sp)) = some (0x04, 0xCE, 0xFFFC) := by decide
/-- K-13: the low nibble of F is masked. -/
theorem test_pop_af : after (runs .popAf { Running.reset with sp := 0xFFFA, mem := [(0xFFFA, 0x9F), (0xFFFB, 0x12)] })
    (fun s => (s.a, s.f)) = some (0x12, 0x90) := by decide
/-- X-2, X-6, X-12, X-13, X-14. -/
theorem test_faults : faultOf (steps (boot [0xD3])) = some (.decodeError 0xD3) ∧
    faultOf (steps (boot [0xCB, 0xCB])) = some (.decodeErrorCb 0xCB) ∧
    faultOf (steps (boot [0x3E])) = some (.inputError 1) ∧ faultOf (steps (boot [0xCB])) = some (.inputError 1) ∧
    faultOf (steps (boot [])) = some (.inputError 0) := by decide

/-- X-2: after the fault the driver reads the diagnostic, and no register. -/
theorem test_faulted_shows_the_fault : diagnostic (afterStep (.running (boot [0xD3]))) = some (.decodeError 0xD3) ∧
    programCounter (afterStep (.running (boot [0xD3]))) = none := by decide

/-! ### Witnesses of the statements' hypotheses

Each theorem shows a concrete state, and operands, that meet the hypotheses named in its title; where a statement has
several clauses, one theorem has a value for each, at the ends of its range. -/

theorem reset_meets_Inv : Inv State.reset :=
  ⟨Running.reset, rfl, BitVec.zero_and, List.Pairwise.nil, fun _ h => nomatch h⟩

/-- DecodeOfEncodeGivesTheInstruction; WellFormedBytesAreWholeInstructions, its last clause. -/
theorem wit_encode : Instr.ldBD8 1 ≠ .prefixCb ∧ Instr.ldBD8 2 ≠ .prefixCb ∧
    (encode (.ldBD8 1)).head? = (encode (.ldBD8 2)).head? := by decide
/-- AcceptedBytesAreTheEncoding, each length. -/
theorem wit_accepted : decodeWhole [0x00, 0x09] = .ok (.nop, [0x09]) ∧
    decodeWhole [0x06, 0x05, 0x09] = .ok (.ldBD8 0x05, [0x09]) ∧
    decodeWhole [0x21, 0x34, 0x12, 0x09] = .ok (.ldHlD16 0x1234, [0x09]) := ⟨rfl, rfl, rfl⟩

theorem holds_of_boot : Holds (boot [0x06, 0x05]) 0 [0x06, 0x05] := by
  intro k h
  match k with
  | 0 => rfl
  | 1 => rfl

/-- StepRunsTheDecodedInstruction, PcAdvancesByTheLength, StepReportsTheInstructionThatRan. -/
theorem wit_step_runs : Holds (boot [0x06, 0x05]) (boot [0x06, 0x05]).pc [0x06, 0x05] ∧
    decodeWhole [0x06, 0x05] = .ok (.ldBD8 0x05, []) ∧
    step (.running (boot [0x06, 0x05])) = .next (.running { boot [0x06, 0x05] with b := 0x05, pc := 2 }) ∧
    transfers (Instr.ldBD8 0x05).form = false := ⟨holds_of_boot, rfl, rfl, rfl⟩
/-- StepRunsTheDecodedInstruction, its second clause; UnadmittedCbByteRaisesDecodeError; PrefixRunsTheInnerInstruction,
its last clause. -/
theorem wit_cb_step : memRead (boot [0xCB, 0xCB]) 0 = .ok 0xCB ∧ memRead (boot [0xCB, 0xCB]) 1 = .ok 0xCB ∧
    admittedCb 0xCB = false := ⟨rfl, rfl, rfl⟩
/-- PrefixRunsTheInnerInstruction: an admitted byte, an unadmitted byte, a fetch that faults. -/
theorem wit_prefix : (memRead (boot [0x7C]) 0 = .ok 0x7C ∧ decodeCb 0x7C = some .bit7H) ∧
    (memRead (boot [0x46]) 0 = .ok 0x46 ∧ admittedCb 0x46 = false) ∧
    memRead (boot []) 0 = .error (.inputError 0) := ⟨⟨rfl, rfl⟩, ⟨rfl, rfl⟩, rfl⟩
/-- UnadmittedFirstByteRaisesDecodeError. -/
theorem wit_unadmitted : memRead (boot [0x76]) 0 = .ok 0x76 ∧ admittedPrimary 0x76 = false := ⟨rfl, rfl⟩
/-- FetchFaultsEndTheStepInOrder and the OperandFetchFaults clauses: the opcode, the first and the second operand byte. -/
theorem wit_fetch_faults : memRead (boot []) 0 = .error (.inputError 0) ∧
    (admittedPrimary 0x06 = true ∧ operandCount 0x06 = 1 ∧ memRead (boot [0x06]) 0 = .ok 0x06 ∧
      memRead (boot [0x06]) 1 = .error (.inputError 1)) ∧
    (admittedPrimary 0x21 = true ∧ operandCount 0x21 = 2 ∧ memRead (boot [0x21, 0x34]) 0 = .ok 0x21 ∧
      memRead (boot [0x21, 0x34]) 1 = .ok 0x34 ∧ memRead (boot [0x21, 0x34]) 2 = .error (.inputError 2)) ∧
    (memRead (boot [0xCB]) 0 = .ok 0xCB ∧ memRead (boot [0xCB]) 1 = .error (.inputError 1)) :=
  ⟨rfl, ⟨rfl, rfl, rfl, rfl⟩, ⟨rfl, rfl, rfl, rfl, rfl⟩, ⟨rfl, rfl⟩⟩
/-- FaultIsPermanent, its second clause; EveryFaultHasItsCause. -/
theorem wit_fault : step (.running (boot [0xD3])) = .fault (.decodeError 0xD3) := rfl
/-- EveryFaultHasItsCause: a step for each kind. -/
theorem wit_fault_kinds : step (.running (boot [0xCB, 0x00])) = .fault (.decodeErrorCb 0x00) ∧
    step (.running { boot [0x7E] with h := 0xA0 }) = .fault (.busError .read 0xA000) ∧
    step (.running (boot [0x32])) = .fault (.busError .write 0x0000) ∧ step (.running (boot [])) = .fault (.inputError 0) :=
  ⟨rfl, rfl, rfl, rfl⟩
/-- StepKeepsInvariant, StepKeepsWhatNothingWrites: a step that stores. RunsMeetInvariantOrAreFaulted takes `Inv`. -/
theorem wit_step_keeps : Inv (.running { boot [0xE0, 0x80] with a := 0x3C }) ∧
    after (step (.running { boot [0xE0, 0x80] with a := 0x3C })) Running.mem = some [(0xFF80, 0x3C)] ∧
    ((0x7FFF : Word).toNat ≤ 0x7FFF ∨ (0x7FFF : Word) = 0xFF44) :=
  ⟨⟨_, rfl, BitVec.zero_and, List.Pairwise.nil, fun _ h => nomatch h⟩, by decide, by decide⟩
/-- CurrentLineDriver, both values of LY_DRIVER. -/
theorem wit_ly_driver : Running.reset.cfg.lyDriver = .static ∧
    ({ Running.reset with cfg := { Config.standard with lyDriver := .external } } : Running).cfg.lyDriver = .external ∧
    (0xFF43 : Word) ≠ 0xFF44 := by decide
/-- BusReadByAddress, the ROM clauses at the ends of their ranges: present, and past the blob. -/
theorem wit_rom_reads : (boot [0x31]).cfg.boot[(0x0000 : Word).toNat]? = some 0x31 ∧
    (0x00FF : Word).toNat ≤ 0x00FF ∧ (boot [0x31]).cfg.boot.length ≤ (0x00FF : Word).toNat ∧
    (0x0100 : Word).toNat - (0x0100 : Nat) = 0 ∧
    ({ Config.standard with cart := [0xCE] } : Config).cart[(0x0100 : Word).toNat - (0x0100 : Nat)]? = some 0xCE ∧
    Running.reset.cfg.cart.length ≤ (0x7FFF : Word).toNat - Running.reset.cfg.cartRebase.val := by decide
/-- BusReadByAddress, the other clauses at the ends of their ranges. -/
theorem wit_reads : (0x8000 ≤ (0x9FFF : Word).toNat ∧ (0x9FFF : Word).toNat ≤ 0x9FFF) ∧
    (0xC000 ≤ (0xC000 : Word).toNat ∧ (0xDFFF : Word).toNat ≤ 0xDFFF) ∧
    (0xFF00 ≤ (0xFF43 : Word).toNat ∧ (0xFF7F : Word).toNat ≤ 0xFF7F ∧ (0xFF43 : Word) ≠ 0xFF40 ∧
      (0xFF43 : Word) ≠ 0xFF42 ∧ (0xFF43 : Word) ≠ 0xFF44) ∧
    (0xFF80 ≤ (0xFF80 : Word).toNat ∧ (0xFFFE : Word).toNat ≤ 0xFFFE) ∧
    List.all [0xA000, 0xBFFF, 0xE000, 0xFEFF, 0xFFFF] (fun a : Word => decide (Unmapped a)) = true ∧
    List.all [0x7FFF, 0x9FFF, 0xC000, 0xDFFF, 0xFF00, 0xFFFE]
      (fun a : Word => decide (¬ Unmapped a)) = true := by decide
/-- BusWriteByAddress and the store statements: writable and not, at each boundary. -/
theorem wit_writes :
    List.all [0x8000, 0x9FFF, 0xC000, 0xDFFF, 0xFF00, 0xFF40, 0xFF42, 0xFF43, 0xFF45, 0xFFFE]
      (fun a : Word => decide (Writable a)) = true ∧
    List.all [0x0000, 0x7FFF, 0xA000, 0xBFFF, 0xE000, 0xFEFF, 0xFF44, 0xFFFF]
      (fun a : Word => decide (¬ Writable a)) = true := by decide
/-- WritesAreIdempotent, StoreIsSeenByTheNextFetch. -/
theorem wit_write : memWrite Running.reset 0xC000 0x3C = .ok { Running.reset with mem := [(0xC000, 0x3C)] } := rfl
/-- ReadsDetermineTheArrays: a state whose arrays list something, beside itself. -/
theorem wit_arrays : Memory.Wf Config.standard [(0x8000, 0xAB), (0xC000, 0x01)] := by decide
/-- VramByteIsNotVisibleElsewhere, the last byte. -/
theorem wit_vram : (8191 : Nat) < 8192 ∧ (0 : Nat) ≠ 8191 := by decide
/-- RegisterViews: two different registers, a pair that is not AF. -/
theorem wit_registers : Reg8.b ≠ Reg8.c ∧ Reg16.hl ≠ Reg16.af := by decide
/-- NopOnlyAdvancesPc, JumpRelative: the step clauses. -/
theorem wit_nop_step : memRead (boot [0x00]) 0 = .ok 0x00 := rfl
theorem wit_jr_step : Holds (boot [0x18, 0xFE]) 0 [0x18, 0xFE] := by
  intro k h
  match k with
  | 0 => rfl
  | 1 => rfl
/-- LoadRegisterFromMemory, CompareWritesFlagsOnly: HL, BC and DE readable, unmapped, and past a blob. -/
theorem wit_operand_addresses : Readable (boot [1]) 0x0000 ∧ ¬ PastBlob (boot [1]) 0x0000 ∧
    PastBlob (boot [1]) 0x0001 ∧ PastBlob Running.reset 0x7FFF ∧
    List.all [0x8000, 0x9FFF, 0xC000, 0xDFFF, 0xFF00, 0xFF44, 0xFFFE]
      (fun a : Word => decide (Readable Running.reset a)) = true ∧
    List.all [0xA000, 0xFFFF] (fun a : Word => decide (Unmapped a)) = true := by decide
theorem wit_operand_pairs : ({ Running.reset with h := 0x80 } : Running).get16 .hl = 0x8000 ∧
    ({ Running.reset with b := 0xA0 } : Running).get16 .bc = 0xA000 ∧
    ({ Running.reset with d := 0x7F, e := 0xFF } : Running).get16 .de = 0x7FFF := by decide
/-- StoreToThePage: each clause, and the neighbours of 0x44 and 0xFF. -/
theorem wit_page :
    ((0x43 : Byte) ≠ 0x44 ∧ (0x43 : Byte) ≠ 0xFF) ∧ ((0x45 : Byte) ≠ 0x44 ∧ (0x45 : Byte) ≠ 0xFF) ∧
    ((0xFE : Byte) ≠ 0x44 ∧ (0xFE : Byte) ≠ 0xFF) ∧ ((0x00 : Byte) ≠ 0x44 ∧ (0x00 : Byte) ≠ 0xFF) := by decide
/-- StoreThroughHlAndMoveIt: HL writable at the two ends of video RAM, and not. -/
theorem wit_hl_store : Writable (({ Running.reset with h := 0x9F, l := 0xFF } : Running).get16 .hl) ∧
    Writable (({ Running.reset with h := 0x80 } : Running).get16 .hl) ∧ ¬ Writable (Running.reset.get16 .hl) := by decide
/-- CallPushesTheReturnAddress, PushStoresThePair, ReturnUndoesCall, PopUndoesPush: both slots writable, the first not,
the second not. -/
theorem wit_stack_slots :
    List.all [0xFFFE, 0xC002, 0x8002, 0xFF44]
      (fun sp : Word => decide (Writable (sp - 1) ∧ Writable (sp - 2))) = true ∧
    List.all [0x0000, 0xFF45, 0x8000] (fun sp : Word => decide (¬ Writable (sp - 1))) = true ∧
    List.all [0xC001, 0xFF46, 0x8001]
      (fun sp : Word => decide (Writable (sp - 1) ∧ ¬ Writable (sp - 2))) = true := by decide
/-- ReturnPopsPc, PopLoadsThePair, PopAfMasksF: both bytes read, the first fault, the second fault. -/
theorem wit_pops : (memRead Running.reset 0xFFFC = .ok 0 ∧ memRead Running.reset 0xFFFD = .ok 0) ∧
    memRead Running.reset 0xFFFF = .error (.busError .read 0xFFFF) ∧
    (memRead Running.reset 0xFFFE = .ok 0 ∧ memRead Running.reset (0xFFFE + 1) = .error (.busError .read 0xFFFF)) :=
  ⟨⟨rfl, rfl⟩, rfl, ⟨rfl, rfl⟩⟩
/-- PopUndoesPush: both kinds of destination. -/
theorem wit_pop_pairs : PairAf.de ≠ .af ∧ PairAf.af = .af := by decide
/-- The frames: one instruction of each shape that completes. -/
theorem wit_frames :
    (shapeOf (Instr.ldBD8 0x05).form = .register ∧
      exec (.ldBD8 0x05) (.running Running.reset) = .next (.running { Running.reset with b := 0x05 })) ∧
    (shapeOf (Instr.ldIndA16A 0xC000).form = .store ∧ exec (.ldIndA16A 0xC000) (.running { Running.reset with a := 0x3C })
      = .next (.running { Running.reset with a := 0x3C, mem := [(0xC000, 0x3C)] })) ∧
    (shapeOf Instr.pushBc.form = .stack ∧ exec .pushBc (.running { Running.reset with b := 0x04, c := 0xCE, sp := 0xC002 })
      = .next (.running { Running.reset with
          b := 0x04, c := 0xCE, sp := 0xC000, mem := [(0xC000, 0xCE), (0xC001, 0x04)] })) :=
  ⟨⟨rfl, rfl⟩, ⟨rfl, rfl⟩, ⟨rfl, rfl⟩⟩

end Sys2Proof.Tests
end

section
/-! SUPPORT. Construction: what the registers and the byte arrays of a constructed machine read as, and the proof of
ConstructionValues. -/

namespace Sys2Proof.Machine

/-- Where no cell is listed, every address reads as its array's fill. -/
@[simp] theorem Memory.byteAt_nil (base : Byte) (n : Nat) : Memory.byteAt base n [] = base := rfl

@[simp] theorem Running.construct_cfg (cfg : Config) : (Running.construct cfg).cfg = cfg := rfl

@[simp] theorem Running.construct_mem (cfg : Config) : (Running.construct cfg).mem = [] := rfl

@[simp] theorem Running.construct_get8 (cfg : Config) (r : Reg8) : (Running.construct cfg).get8 r = 0x00 := by
  cases r <;> rfl

@[simp] theorem vramAt_construct (cfg : Config) (i : Nat) :
    vramAt (Running.construct cfg) i = cfg.vramFill.byte := by
  simp [vramAt]

@[simp] theorem wramAt_construct (cfg : Config) (i : Nat) :
    wramAt (Running.construct cfg) i = cfg.wramFill.byte := by
  simp [wramAt]

@[simp] theorem hramAt_construct (cfg : Config) (i : Nat) :
    hramAt (Running.construct cfg) i = cfg.hramFill.byte := by
  simp [hramAt]

@[simp] theorem ioAt_construct (cfg : Config) (i : Nat) :
    ioAt (Running.construct cfg) i = cfg.ioFill.byte := by
  simp [ioAt]

/-- Settles O20: no cell is listed after construction, so each array reads as its own fill; every other item is set to
its value of R33, and the reset's parameters are those of `Config.standard`. -/
theorem constructionValues : Obligations.ConstructionValues := by
  unfold Obligations.ConstructionValues
  refine ⟨fun cfg => ?items, rfl, rfl, rfl, ?reset⟩
  case items =>
    exact ⟨rfl, rfl, Running.construct_get8 cfg, rfl,
      fun i _ => vramAt_construct cfg i, fun i _ => wramAt_construct cfg i,
      fun i _ => hramAt_construct cfg i, fun i _ => ioAt_construct cfg i,
      rfl, rfl, rfl, rfl, Running.construct_cfg cfg, rfl⟩
  case reset => exact ⟨rfl, rfl, rfl, rfl, rfl, rfl⟩

end Sys2Proof.Machine
end

section
/-! SUPPORT. The bus: what a write leaves unchanged, and which reads depend on nothing that is written. -/

namespace Sys2Proof.Machine

/-- A bus write changes no register and no state behind no address. -/
theorem memWrite_sameCore {s t : Running} {a : Word} {v : Byte} (h : memWrite s a v = .ok t) : SameCore s t := by
  obtain ⟨x, -, rfl⟩ | ⟨-, rfl⟩ | ⟨-, rfl⟩ := memWrite_cases h
  · exact ⟨s.arrayWrite_get8 x a v, rfl, rfl, rfl, rfl, rfl, rfl⟩
  · exact ⟨fun r => by cases r <;> rfl, rfl, rfl, rfl, rfl, rfl, rfl⟩
  · exact ⟨fun r => by cases r <;> rfl, rfl, rfl, rfl, rfl, rfl, rfl⟩

/-- A bus write leaves every byte outside its address as before (R58). -/
theorem memRead_memWrite_ne {s t : Running} {a x : Word} {v : Byte} (h : memWrite s a v = .ok t) (hx : x ≠ a) :
    memRead t x = memRead s x := by
  obtain ⟨y, -, rfl⟩ | ⟨ha, rfl⟩ | ⟨ha, rfl⟩ := memWrite_cases h
  · have hn : x.toNat ≠ a.toNat := mt word_eq.2 hx
    simp [memRead, Running.arrayRead, Memory.byteAt_put_ne _ _ v s.mem hn]
  · have hr : region x.toNat ≠ .ppuControl := fun hc => hx (word_eq.2 ((region_eq.1 hc).trans (region_eq.1 ha).symm))
    cases hreg : region x.toNat <;> simp_all [memRead, Running.arrayRead]
  · have hr : region x.toNat ≠ .ppuScrollY := fun hc => hx (word_eq.2 ((region_eq.1 hc).trans (region_eq.1 ha).symm))
    cases hreg : region x.toNat <;> simp_all [memRead, Running.arrayRead]

/-- A read of the ROM ranges depends on the parameters alone (R48). -/
theorem memRead_rom_congr {s t : Running} {a : Word} (ha : a.toNat ≤ 0x7FFF) (h : t.cfg = s.cfg) :
    memRead t a = memRead s a := by
  by_cases hb : a.toNat ≤ 0x00FF
  · have hr : region a.toNat = .bootRom := region_eq.2 hb
    simp only [memRead, hr, h]
  · have hr : region a.toNat = .cartRom := region_eq.2 ⟨by omega, ha⟩
    simp only [memRead, hr, h]

/-- A read of 0xFF44 answers PPU.ly (R41). -/
theorem memRead_ly (s : Running) : memRead s 0xFF44 = .ok s.ly := rfl

/-- A read of any other address does not depend on PPU.ly. -/
theorem memRead_with_ly_ne (s : Running) (v : Byte) {a : Word} (ha : a ≠ 0xFF44) :
    memRead { s with ly := v } a = memRead s a := by
  have hr : region a.toNat ≠ .ppuLy := fun hc => ha (word_eq.2 (region_eq.1 hc))
  cases hreg : region a.toNat <;> simp_all [memRead, Running.arrayRead]

end Sys2Proof.Machine
end

section
/-! SUPPORT. What a form may do, said once: `Writes x s t` holds where `t` comes from `s` by updates the tables of
Safety.lean allow the form `x`. Every operation that completes is such a sequence (`formOperation_writes`), and the
invariant and the frames are each an induction over the updates. -/

namespace Sys2Proof.Machine

/-- A flag write allowed to a form that writes flags: each flag the form does not write keeps its value (R18). -/
structure FlagsAllowed (x : Form) (old new : Flags) : Prop where
  any  : flagsWritten x ≠ ⟨false, false, false, false⟩
  z    : (flagsWritten x).z = false → new.z = old.z
  n    : (flagsWritten x).n = false → new.n = old.n
  h    : (flagsWritten x).h = false → new.h = old.h
  c    : (flagsWritten x).c = false → new.c = old.c

/-- `t` comes from `s` by updates the form `x`, executed in `s`, is allowed. -/
inductive Writes (x : Form) (s : Running) : Running → Prop
  | refl : Writes x s s
  | reg {t : Running} (ht : Writes x s t) (r : Reg8) (v : Byte) (hr : r ∈ destRegs x) : Writes x s (t.set8 r v)
  | flags {t : Running} (ht : Writes x s t) (y : Flags) (hy : FlagsAllowed x s.flags y) : Writes x s (t.setFlags y)
  | sp {t : Running} (ht : Writes x s t) (v : Word) (hx : writesSp x = true) : Writes x s { t with sp := v }
  | pc {t : Running} (ht : Writes x s t) (v : Word) (hx : transfers x = true) : Writes x s { t with pc := v }
  | store {t u : Running} (ht : Writes x s t) {a : Word} {v : Byte} (ha : a ∈ storesTo x s)
      (h : memWrite t a v = .ok u) : Writes x s u

/-! ### The composite updates -/

/-- A write of a pair is a write of its two halves, or of SP (R14). -/
theorem Writes.pair {x : Form} {s t : Running} (ht : Writes x s t) (p : PairSp) (v : Word)
    (hr : ∀ r ∈ pairHalves p, r ∈ destRegs x) (hsp : p = .sp → writesSp x = true) :
    Writes x s (t.set16 (pairSpView p) v) := by
  cases p with
  | bc => exact (ht.reg .b (hiByte v) (hr _ (by simp [pairHalves]))).reg .c (loByte v) (hr _ (by simp [pairHalves]))
  | de => exact (ht.reg .d (hiByte v) (hr _ (by simp [pairHalves]))).reg .e (loByte v) (hr _ (by simp [pairHalves]))
  | hl => exact (ht.reg .h (hiByte v) (hr _ (by simp [pairHalves]))).reg .l (loByte v) (hr _ (by simp [pairHalves]))
  | sp => exact ht.sp v (hsp rfl)

/-- A masked byte is the byte of its four flags (R15, R16). -/
theorem Flags.byte_ofByte (v : Byte) : (Flags.ofByte v).byte = v &&& 0xF0 := by
  revert v
  decide

/-- A write of F is a write of the four flags (R13, R16). -/
theorem Running.setF_eq_setFlags (s : Running) (v : Byte) : s.setF v = s.setFlags (Flags.ofByte v) := by
  simp [Running.setFlags, Running.setF, Flags.byte_ofByte, BitVec.and_assoc]

/-- A popped pair is a write of its two halves, which for AF are A and the flags (R197, R198). -/
theorem Writes.popPair {s t : Running} {q : PairAf} (ht : Writes (.pop q) s t) (v : Word) :
    Writes (.pop q) s (t.set16 (pairAfView q) v) := by
  cases q with
  | bc => exact ht.pair .bc v (fun _ h => h) nofun
  | de => exact ht.pair .de v (fun _ h => h) nofun
  | hl => exact ht.pair .hl v (fun _ h => h) nofun
  | af =>
    have h : t.set16 .af v = (t.set8 .a (hiByte v)).setFlags (Flags.ofByte (loByte v)) :=
      Running.setF_eq_setFlags _ _
    rw [pairAfView, h]
    exact (ht.reg .a _ (by simp [destRegs, popHalves])).flags _ ⟨nofun, nofun, nofun, nofun, nofun⟩

/-- A push stores at SP - 1 and at SP - 2, and moves SP (R193). -/
theorem Writes.push16 {x : Form} {s t : Running} {w : Word} (h : push16 w s = .ok t) (hsp : writesSp x = true)
    (hx : storesTo x s = [s.sp - 1, s.sp - 2]) : Writes x s t := by
  obtain ⟨s₁, h₁, h₂⟩ := push16_ok h
  have e : s₁.sp - 1 = s.sp - 2 := by
    rw [(memWrite_sameCore h₁).sp, BitVec.sub_sub]
    rfl
  have w₁ : Writes x s s₁ := (Writes.refl.sp _ hsp).store (by simp [hx]) h₁
  exact (w₁.sp (s₁.sp - 1) hsp).store (by rw [e, hx]; simp) h₂

/-- A pop moves SP (R193). -/
theorem Writes.pop16 {x : Form} {s t : Running} {w : Word} (h : pop16 s = .ok (w, t)) (hsp : writesSp x = true) :
    Writes x s t := by
  obtain ⟨_, _, -, -, -, rfl⟩ := pop16_ok h
  exact Writes.refl.sp _ hsp

/-! ### The shared operations -/

/-- A load into a general register writes that register (R111). -/
theorem load_reg8_writes {x : Form} {s t : Running} {r : Reg8} {src : Src} (h : load (.reg8 r) src s = .ok t)
    (hr : r ∈ destRegs x) : Writes x s t := by
  obtain ⟨v, -, hv⟩ := load_ok h
  cases hv
  exact Writes.refl.reg r _ hr

/-- A load into a pair writes its halves, or SP (R111). -/
theorem load_pair_writes {x : Form} {s t : Running} {p : PairSp} {src : Src}
    (h : load (.reg16 (pairSpView p)) src s = .ok t) (hr : ∀ r ∈ pairHalves p, r ∈ destRegs x)
    (hsp : p = .sp → writesSp x = true) : Writes x s t := by
  obtain ⟨v, -, hv⟩ := load_ok h
  cases hv
  exact Writes.refl.pair p _ hr hsp

/-- A store through HL stores at the old HL and then moves HL (R111). -/
theorem storeHlThen_writes {x : Form} {s t : Running} {next : Word} {v : Byte} (h : storeHlThen next v s = .ok t)
    (ha : s.get16 .hl ∈ storesTo x s) (hr : ∀ r ∈ pairHalves .hl, r ∈ destRegs x) : Writes x s t := by
  obtain ⟨s₁, h₁, rfl⟩ := storeHlThen_ok h
  exact (Writes.refl.store ha h₁).pair .hl next hr nofun

/-- A compare writes the four flags (R147). -/
theorem compareAcc_writes {x : Form} {s t : Running} {src : Src} (h : compareAcc src s = .ok t)
    (hx : flagsWritten x = ⟨true, true, true, true⟩) : Writes x s t := by
  unfold compareAcc at h
  split at h
  · cases h
    exact Writes.refl.flags _ ⟨by simp [hx], by simp [hx], by simp [hx], by simp [hx], by simp [hx]⟩
  · cases h

/-- A CB operation writes its register and the four flags, or all flags but CARRY (R171, R172). -/
theorem cbOperation_writes {o : CbOp} {s t : Running} (h : cbOperation o s = .ok t) : Writes (.cb o) s t := by
  cases o with
  | rl r =>
    cases h
    exact (Writes.refl.reg r _ (by simp [destRegs])).flags _ ⟨nofun, nofun, nofun, nofun, nofun⟩
  | bit b r =>
    cases h
    exact Writes.refl.flags _ ⟨nofun, nofun, nofun, nofun, fun _ => rfl⟩

/-- A call stores the two bytes of the return address and writes pc (R194). -/
theorem call_writes {n : Word} {s t : Running} (h : call n s = .ok t) : Writes (.call n) s t := by
  unfold call at h
  split at h
  · next s₁ h₁ =>
    cases h
    exact (Writes.push16 h₁ rfl rfl).pc n rfl
  · cases h

/-- A return moves SP and writes pc (R195). -/
theorem ret_writes {s t : Running} (h : ret s = .ok t) : Writes .ret s t := by
  unfold ret at h
  split at h
  · next w s₁ h₁ =>
    cases h
    exact (Writes.pop16 h₁ rfl).pc w rfl
  · cases h

/-- A pop moves SP and writes its pair (R197, R198). -/
theorem pop_writes {q : PairAf} {s t : Running} (h : pop (pairAfView q) s = .ok t) : Writes (.pop q) s t := by
  unfold pop at h
  split at h
  · next w s₁ h₁ =>
    cases h
    exact (Writes.pop16 h₁ rfl).popPair w
  · cases h

/-- A conditional jump writes pc or nothing (R192). -/
theorem jumpIf_writes {cc : Cond} {e : Byte} {s t : Running} (h : jumpIf cc e s = .ok t) :
    Writes (.jrCond cc e) s t := by
  unfold jumpIf at h
  split at h
  · cases h
    exact Writes.refl.pc _ rfl
  · cases h
    exact .refl

/-- Every form that completes makes only updates its row of the tables allows. `PREFIX CB` runs the form of its inner
row, whose tables are its own. -/
theorem formOperation_writes {x : Form} {s t : Running} (hx : x ≠ .prefixCb) (h : formOperation x s = .ok t) :
    Writes x s t := by
  cases x with
  | nop => cases h; exact .refl
  | ldRegReg dst src => exact load_reg8_writes (src := .reg8 src) h (by simp [destRegs])
  | ldRegIndHl dst => exact load_reg8_writes h (by simp [destRegs])
  | ldRegImm dst n => exact load_reg8_writes (src := .imm8 n) h (by simp [destRegs])
  | ldAIndBc => exact load_reg8_writes h (by simp [destRegs])
  | ldAIndDe => exact load_reg8_writes h (by simp [destRegs])
  | ldPairImm p n => exact load_pair_writes (src := .imm16 n) h (fun _ hr => hr) (by rintro rfl; rfl)
  | ldSpHl => exact load_pair_writes (p := .sp) (src := .reg16 .hl) h nofun (fun _ => rfl)
  | ldhIndImmA n => exact Writes.refl.store (by simp [storesTo]) h
  | ldIndCA => exact Writes.refl.store (by simp [storesTo]) h
  | ldIndHlIncA => exact storeHlThen_writes h (by simp [storesTo]) (fun _ hr => hr)
  | ldIndHlDecA => exact storeHlThen_writes h (by simp [storesTo]) (fun _ hr => hr)
  | ldIndAbsA n => exact Writes.refl.store (by simp [storesTo]) h
  | incReg r =>
    cases h
    exact (Writes.refl.reg r _ (by simp [destRegs])).flags _ ⟨nofun, nofun, nofun, nofun, fun _ => rfl⟩
  | decReg r =>
    cases h
    exact (Writes.refl.reg r _ (by simp [destRegs])).flags _ ⟨nofun, nofun, nofun, nofun, fun _ => rfl⟩
  | incPair p => cases h; exact Writes.refl.pair p _ (fun _ hr => hr) (by rintro rfl; rfl)
  | decPair p => cases h; exact Writes.refl.pair p _ (fun _ hr => hr) (by rintro rfl; rfl)
  | xorA =>
    cases h
    exact (Writes.refl.reg .a _ (by simp [destRegs])).flags _ ⟨nofun, nofun, nofun, nofun, nofun⟩
  | cpReg r => exact compareAcc_writes (src := .reg8 r) h rfl
  | cpIndHl => exact compareAcc_writes h rfl
  | cpImm n => exact compareAcc_writes (src := .imm8 n) h rfl
  | rla =>
    cases h
    exact (Writes.refl.reg .a _ (by simp [destRegs])).flags _ ⟨nofun, nofun, nofun, nofun, nofun⟩
  | jr e => cases h; exact Writes.refl.pc _ rfl
  | jrCond cc e => exact jumpIf_writes h
  | call n => exact call_writes h
  | ret => exact ret_writes h
  | push q => exact Writes.push16 h rfl rfl
  | pop q => exact pop_writes h
  | prefixCb => exact absurd rfl hx
  | cb o => exact cbOperation_writes h

/-! ### What every allowed sequence of updates keeps -/

/-- Every update keeps the low nibble of F zero and the byte arrays canonical. -/
theorem Writes.keeps_inv {x : Form} {s t : Running} (h : Writes x s t) (hs : s.Inv) : t.Inv := by
  induction h with
  | refl => exact hs
  | reg ht r v hr ih => exact ⟨by simpa using ih.lowNibble, by simpa using ih.memory⟩
  | flags ht y hy ih => exact ⟨by rw [Running.setFlags_f, Flags.byte_low], ih.memory⟩
  | sp ht v hx ih => exact ⟨ih.lowNibble, ih.memory⟩
  | pc ht v hx ih => exact ⟨ih.lowNibble, ih.memory⟩
  | store ht ha hw ih => exact ⟨(memWrite_sameCore hw).f ▸ ih.lowNibble, memWrite_keeps_wf hw ih.memory⟩

/-- The frame admits a write of a register the form writes. -/
theorem Frame.reg {x : Form} {s t : Running} (h : Frame x s t) {r : Reg8} {v : Byte} (hr : r ∈ destRegs x) :
    Frame x s (t.set8 r v) where
  regs q hq := by rw [Running.get8_set8_ne _ _ (by rintro rfl; exact hq hr), h.regs q hq]
  flagZ hf := by simpa [Running.flags] using h.flagZ hf
  flagN hf := by simpa [Running.flags] using h.flagN hf
  flagH hf := by simpa [Running.flags] using h.flagH hf
  flagC hf := by simpa [Running.flags] using h.flagC hf
  f hf := by simpa using h.f hf
  sp hx := by simpa using h.sp hx
  pc hx := by simpa using h.pc hx
  cfg := by simpa using h.cfg
  scrollX := by simpa using h.scrollX
  ly := by simpa using h.ly
  bytes a ha := by simpa using h.bytes a ha

/-- The frame admits a write of the flags the form writes. -/
theorem Frame.flags {x : Form} {s t : Running} (h : Frame x s t) {y : Flags} (hy : FlagsAllowed x s.flags y) :
    Frame x s (t.setFlags y) where
  regs q hq := by simpa using h.regs q hq
  flagZ hf := by simpa using hy.z hf
  flagN hf := by simpa using hy.n hf
  flagH hf := by simpa using hy.h hf
  flagC hf := by simpa using hy.c hf
  f hf := absurd hf hy.any
  sp := h.sp
  pc := h.pc
  cfg := h.cfg
  scrollX := h.scrollX
  ly := h.ly
  bytes a ha := by simpa using h.bytes a ha

/-- The frame admits a store at an address the form stores to. -/
theorem Frame.store {x : Form} {s t u : Running} (h : Frame x s t) {a : Word} {v : Byte} (ha : a ∈ storesTo x s)
    (hw : memWrite t a v = .ok u) : Frame x s u := by
  have hc := memWrite_sameCore hw
  have hfl : u.flags = t.flags := congrArg Flags.ofByte hc.f
  exact
    { regs q hq := (hc.regs q).trans (h.regs q hq)
      flagZ hf := hfl ▸ h.flagZ hf
      flagN hf := hfl ▸ h.flagN hf
      flagH hf := hfl ▸ h.flagH hf
      flagC hf := hfl ▸ h.flagC hf
      f hf := hc.f.trans (h.f hf)
      sp hx := hc.sp.trans (h.sp hx)
      pc hx := hc.pc.trans (h.pc hx)
      cfg := hc.cfg.trans h.cfg
      scrollX := hc.scrollX.trans h.scrollX
      ly := hc.ly.trans h.ly
      bytes b hb := (memRead_memWrite_ne hw (by rintro rfl; exact hb ha)).trans (h.bytes b hb) }

/-- Allowed updates stay outside the form's frame. -/
theorem Writes.frame {x : Form} {s t : Running} (h : Writes x s t) : Frame x s t := by
  induction h with
  | refl => constructor <;> intros <;> rfl
  | reg ht r v hr ih => exact ih.reg hr
  | flags ht y hy ih => exact ih.flags hy
  | sp ht v hx ih =>
    exact { ih with
      regs q hq := by simpa using ih.regs q hq
      sp hf := absurd hx (by simp [hf])
      bytes a ha := by simpa using ih.bytes a ha }
  | pc ht v hx ih =>
    exact { ih with
      regs q hq := by simpa using ih.regs q hq
      pc hf := absurd hx (by simp [hf])
      bytes a ha := by simpa using ih.bytes a ha }
  | store ht ha hw ih => exact ih.store ha hw

/-- The frame of every instruction but `PREFIX CB`. -/
theorem exec_frame {i : Instr} {s : Running} {t : State} (hi : i.form ≠ .prefixCb) (h : exec i (.running s) = .next t) :
    ∃ m : Running, t = .running m ∧ Frame i.form s m := by
  obtain ⟨m, rfl, hm⟩ := exec_next.1 h
  exact ⟨m, rfl, (formOperation_writes hi hm).frame⟩

/-! ### The step -/

/-- `PREFIX CB` that completes ran an inner row's operation with pc past the second byte (R170). -/
theorem prefixOperation_ok {s t : Running} (h : prefixOperation s = .ok t) :
    ∃ op2 o, memRead s s.pc = .ok op2 ∧ decodeCbOp op2 = some o ∧ cbOperation o { s with pc := s.pc + 1 } = .ok t := by
  unfold prefixOperation at h
  split at h
  · cases h
  · next op2 s₁ h₁ =>
    obtain ⟨hop2, rfl⟩ := fetch8_ok h₁
    split at h
    · cases h
    · next o ho => exact ⟨op2, o, hop2, ho, h⟩

/-- Fetching changes pc alone (R82, R83). -/
theorem fetchDecode_changes_pc {s t : Running} {i : Instr} (h : fetchDecode s = .ok (i, t)) :
    ∃ p : Word, t = { s with pc := p } := by
  obtain ⟨_, -, ⟨-, rfl⟩ | ⟨_, _, -, -, -, rfl⟩ | ⟨_, _, _, -, -, -, -, rfl⟩⟩ := fetchDecode_ok h <;> exact ⟨_, rfl⟩

/-- Everything a step that answers a next state can do: some form, the inner one for a CB pair, makes its allowed updates
in the state that fetching moved the pc of. -/
theorem step_writes {s t : State} (h : step s = .next t) :
    ∃ (m u : Running) (p : Word) (x : Form), s = .running m ∧ t = .running u ∧ Writes x { m with pc := p } u := by
  obtain ⟨m, i, m₁, rfl, hf, he⟩ := step_next h
  obtain ⟨p, rfl⟩ := fetchDecode_changes_pc hf
  obtain ⟨u, rfl, hu⟩ := exec_next.1 he
  by_cases hi : i.form = .prefixCb
  · rw [hi] at hu
    obtain ⟨_, o, -, -, ho⟩ := prefixOperation_ok hu
    exact ⟨m, u, p + 1, .cb o, rfl, rfl, cbOperation_writes ho⟩
  · exact ⟨m, u, p, i.form, rfl, rfl, formOperation_writes hi hu⟩

end Sys2Proof.Machine
end

section
/-! SUPPORT. The invariant along steps and runs, the frames, and the proofs of the statements about them. -/

namespace Sys2Proof.Machine

/-- Settles O15: the step's updates each keep the invariant, and the pc that fetching moves is no part of it. -/
theorem stepKeepsInvariant : Obligations.StepKeepsInvariant := by
  unfold Obligations.StepKeepsInvariant
  rintro s t ⟨m, rfl, hm⟩ h
  obtain ⟨_, u, p, x, hs, rfl, hw⟩ := step_writes h
  cases hs
  exact ⟨u, rfl, hw.keeps_inv ⟨hm.lowNibble, hm.memory⟩⟩

/-- The invariant holds, or the machine is the faulted state of one fault. -/
def InvOrFaulted (s : State) : Prop := Inv s ∨ ∃ f, s = .faulted f

/-- What the driver holds after one call of `step()` meets the invariant or is a fault. -/
theorem InvOrFaulted.afterStep {s : State} (h : InvOrFaulted s) : InvOrFaulted (afterStep s) := by
  obtain hs | ⟨f, rfl⟩ := h
  · unfold Machine.afterStep
    split
    · next t ht => exact .inl (stepKeepsInvariant s t hs ht)
    · next f _ => exact .inr ⟨f, rfl⟩
    · exact .inl hs
  · exact .inr ⟨f, afterStep_of_fault (step_faulted f)⟩

/-- The driver of PPU.ly sets no byte the invariant speaks of. -/
theorem InvOrFaulted.driveLy {s : State} (h : InvOrFaulted s) (v : Byte) : InvOrFaulted (s.driveLy v) := by
  obtain ⟨m, rfl, hm⟩ | ⟨f, rfl⟩ := h
  · refine .inl ⟨m.driveLy v, rfl, ?_⟩
    unfold Running.driveLy
    split
    · exact hm
    · exact ⟨hm.lowNibble, hm.memory⟩
  · exact .inr ⟨f, rfl⟩

theorem InvOrFaulted.repeat {s : State} (h : InvOrFaulted s) (n : Nat) :
    InvOrFaulted (Nat.repeat Machine.afterStep n s) := by
  induction n with
  | zero => exact h
  | succ n ih => exact ih.afterStep

theorem InvOrFaulted.drivenRun {s : State} (h : InvOrFaulted s) (vs : List Byte) :
    InvOrFaulted (drivenRun s vs) := by
  induction vs generalizing s with
  | nil => exact h
  | cons v vs ih => exact ih (h.driveLy v).afterStep

/-- Settles O17, by induction on the number of steps and on the driver's bytes. -/
theorem runsMeetInvariantOrAreFaulted : Obligations.RunsMeetInvariantOrAreFaulted := by
  unfold Obligations.RunsMeetInvariantOrAreFaulted
  exact ⟨fun s n hs => InvOrFaulted.repeat (.inl hs) n, fun s vs hs => InvOrFaulted.drivenRun (.inl hs) vs⟩

/-- Settles O18: these items are in every form's frame, and the reads depend on nothing else. -/
theorem stepKeepsWhatNothingWrites : Obligations.StepKeepsWhatNothingWrites := by
  unfold Obligations.StepKeepsWhatNothingWrites
  intro s t h
  obtain ⟨_, u, p, x, hs, rfl, hw⟩ := step_writes h
  cases hs
  have hf := hw.frame
  refine ⟨u, rfl, hf.cfg, hf.scrollX, hf.ly, ?_⟩
  rintro a (ha | rfl)
  · exact memRead_rom_congr ha hf.cfg
  · rw [memRead_ly, memRead_ly, hf.ly]

/-- A shape other than that of `PREFIX CB` is the shape of another form. -/
theorem form_ne_prefixCb {x : Form} {y : Shape} (h : shapeOf x = y) (hy : y ≠ .cbPrefix) : x ≠ .prefixCb := by
  rintro rfl
  exact hy h.symm

/-- Settles O58, the frame of the forms that neither store nor use the stack. -/
theorem registerInstructionFrame : Obligations.RegisterInstructionFrame := by
  unfold Obligations.RegisterInstructionFrame
  exact fun i s t hx h => exec_frame (form_ne_prefixCb hx nofun) h

/-- Settles O59, the frame of the stores: `storesTo` is the one address each computes. -/
theorem storeInstructionFrame : Obligations.StoreInstructionFrame := by
  unfold Obligations.StoreInstructionFrame
  exact fun i s t hx h => exec_frame (form_ne_prefixCb hx nofun) h

/-- Settles O60, the frame of the stack instructions: `storesTo` is the two slots below SP, or nothing. -/
theorem stackInstructionFrame : Obligations.StackInstructionFrame := by
  unfold Obligations.StackInstructionFrame
  exact fun i s t hx h => exec_frame (form_ne_prefixCb hx nofun) h

end Sys2Proof.Machine
end

section
/-! SUPPORT. Decoding byte sequences: what the decoder accepts, that it is the encoding and that the fetch finds it; and
the proofs of the statements about the step and pc. -/

namespace Sys2Proof

/-- Everything `decode` accepts: a first byte the primary table admits, with the operand bytes its entry takes. -/
theorem decode_ok {bytes rest : List Byte} {i : Instr} (h : decode bytes = .ok (i, rest)) :
    (∃ op, bytes = op :: rest ∧ primary op = some (.op i)) ∨
    (∃ op n mk, bytes = op :: n :: rest ∧ primary op = some (.d8 mk) ∧ i = mk n) ∨
    ∃ op lo hi mk, bytes = op :: lo :: hi :: rest ∧ primary op = some (.d16 mk) ∧ i = mk (wordOf hi lo) := by
  cases bytes with
  | nil => cases h
  | cons op tail =>
    simp only [decode] at h
    split at h
    · cases h
    · next j he => cases h; exact .inl ⟨op, rfl, he⟩
    · next mk he =>
      split at h
      · cases h; exact .inr (.inl ⟨op, _, mk, rfl, he, rfl⟩)
      · cases h
    · next mk he =>
      split at h
      · cases h; exact .inr (.inr ⟨op, _, _, mk, rfl, he, rfl⟩)
      · cases h

/-- Everything `decodeWhole` accepts: what `decode` does, or 0xCB with an admitted second byte. -/
theorem decodeWhole_ok {bytes rest : List Byte} {i : Instr} (h : decodeWhole bytes = .ok (i, rest)) :
    decode bytes = .ok (i, rest) ∨
    ∃ op2 o, decode bytes = .ok (.prefixCb, op2 :: rest) ∧ decodeCbOp op2 = some o ∧ i = o.toInstr := by
  unfold decodeWhole at h
  split at h
  · next op2 rest' hd =>
    split at h
    · next j hj =>
      cases h
      obtain ⟨o, ho, rfl⟩ := Option.map_eq_some_iff.1 hj
      exact .inr ⟨op2, o, hd, ho, rfl⟩
    · cases h
  · cases h
  · exact .inl h

/-! ### The decoder's tables against the encoder -/

/-- The instructions of an entry under the first byte `op` are encoded as that byte and their operand bytes. -/
def Entry.EncodedUnder (op : Byte) : Entry → Prop
  | .op i => encode i = [op]
  | .d8 mk => ∀ n, encode (mk n) = [op, n]
  | .d16 mk => ∀ n, encode (mk n) = [op, loByte n, hiByte n]

/-- The primary map (R87) agrees with the patterns and field codes of the encoder (R81, R85), row by row. -/
theorem primary_encodedUnder {op : Byte} {e : Entry} (h : primary op = some e) : e.EncodedUnder op := by
  unfold primary at h
  split at h <;> cases h <;> simp only [Entry.EncodedUnder] <;> intros <;> rfl

/-- The CB map (R88) agrees with the patterns of the encoder (R81). -/
theorem decodeCbOp_encode {op2 : Byte} {o : CbOp} (h : decodeCbOp op2 = some o) : o.encode = op2 := by
  have table : ∀ op2 : Byte, ∀ o ∈ decodeCbOp op2, o.encode = op2 := by decide
  exact table op2 o h

/-- The bytes of a CB pair: 0xCB and the byte of its operation. -/
theorem encode_cb (o : CbOp) : encode o.toInstr = [0xCB, o.encode] :=
  congrArg Form.encode (Machine.form_toInstr (.cb o))

/-- What `decode` accepts is the encoding of its answer, followed by the bytes it leaves. -/
theorem encode_of_decode {bytes rest : List Byte} {i : Instr} (h : decode bytes = .ok (i, rest)) :
    bytes = encode i ++ rest := by
  obtain ⟨op, rfl, he⟩ | ⟨op, n, mk, rfl, he, rfl⟩ | ⟨op, lo, hi, mk, rfl, he, rfl⟩ := decode_ok h
  · rw [show encode i = [op] from primary_encodedUnder he]
    rfl
  · rw [show encode (mk n) = [op, n] from primary_encodedUnder he n]
    rfl
  · have hmk : encode (mk (wordOf hi lo)) = [op, loByte (wordOf hi lo), hiByte (wordOf hi lo)] :=
      primary_encodedUnder he _
    rw [hmk, loByte_wordOf, hiByte_wordOf]
    rfl

/-- The same of a whole instruction, CB pairs included. -/
theorem encode_of_decodeWhole {bytes rest : List Byte} {i : Instr} (h : decodeWhole bytes = .ok (i, rest)) :
    bytes = encode i ++ rest := by
  obtain hd | ⟨op2, o, hd, ho, rfl⟩ := decodeWhole_ok h
  · exact encode_of_decode hd
  · rw [encode_of_decode hd, encode_cb, decodeCbOp_encode ho]
    rfl

/-- A whole instruction is never `PREFIX CB` alone: its one byte is no whole instruction (R93). -/
theorem form_ne_prefixCb_of_decodeWhole {bytes : List Byte} {i : Instr} (h : decodeWhole bytes = .ok (i, [])) :
    i.form ≠ .prefixCb := by
  intro hi
  have hb : bytes = [0xCB] := by
    rw [encode_of_decodeWhole h, encode, hi]
    rfl
  subst hb
  cases h

namespace Machine

/-! ### The fetch against the decoder -/

/-- The first byte of a sequence in memory is the byte at its address. -/
theorem Holds.head {s : Running} {a : Word} {b : Byte} {tail : List Byte} (h : Holds s a (b :: tail)) :
    memRead s a = .ok b := by
  have h₀ := h 0 (by simp)
  rwa [BitVec.add_zero] at h₀

/-- The fetch finds the instruction that `decode` reads from the bytes at pc, and moves pc past its bytes (R82, R83). -/
theorem fetchDecode_of_holds {s : Running} {bytes rest : List Byte} {i : Instr} (hs : Holds s s.pc bytes)
    (h : decode bytes = .ok (i, rest)) :
    fetchDecode s = .ok (i, { s with pc := s.pc + BitVec.ofNat 16 (encode i).length }) := by
  obtain ⟨op, rfl, he⟩ | ⟨op, n, mk, rfl, he, rfl⟩ | ⟨op, lo, hi, mk, rfl, he, rfl⟩ := decode_ok h
  · rw [show encode i = [op] from primary_encodedUnder he]
    exact fetchDecode_op hs.head he
  · rw [show encode (mk n) = [op, n] from primary_encodedUnder he n]
    exact fetchDecode_d8 hs.head he (hs 1 (by simp))
  · have hmk : encode (mk (wordOf hi lo)) = [op, loByte (wordOf hi lo), hiByte (wordOf hi lo)] :=
      primary_encodedUnder he _
    rw [hmk]
    exact fetchDecode_d16 hs.head he (hs 1 (by simp)) (hs 2 (by simp))

/-- The step runs what its fetch decoded. -/
theorem step_of_fetchDecode {s t : Running} {i : Instr} (h : fetchDecode s = .ok (i, t)) :
    step (.running s) = exec i (.running t) := by
  rw [step_running, h]

/-- The step of a whole instruction at pc: fetched by its bytes, or a CB pair, whose second byte `PREFIX CB` fetches. -/
theorem step_of_holds {s : Running} {bytes : List Byte} {i : Instr} (hs : Holds s s.pc bytes)
    (h : decodeWhole bytes = .ok (i, [])) :
    step (.running s) = exec i (.running { s with pc := s.pc + BitVec.ofNat 16 bytes.length }) := by
  obtain hd | ⟨op2, o, hd, ho, rfl⟩ := decodeWhole_ok h
  · rw [step_of_fetchDecode (fetchDecode_of_holds hs hd), encode_of_decode hd, List.append_nil]
  · have hb : bytes = [0xCB, op2] := encode_of_decode hd
    have h₁ : memRead { s with pc := s.pc + 1 } (s.pc + 1) = .ok op2 := by
      subst hb
      rw [memRead_pc]
      exact hs 1 (by simp)
    have hf : fetchDecode s = .ok (.prefixCb, { s with pc := s.pc + 1 }) := fetchDecode_of_holds hs hd
    calc step (.running s)
        = execPrefixCb (.running { s with pc := s.pc + 1 }) := step_of_fetchDecode hf
      _ = exec o.toInstr (.running { s with pc := s.pc + 1 + 1 }) := by
        rw [execPrefixCb_of_op h₁ ho, execCbOp_eq_exec]
      _ = _ := by
        rw [hb, BitVec.add_assoc]
        rfl

/-- Settles O6: the fetch finds the decoded instruction; 0xCB is the whole of what is fetched before `PREFIX CB` runs. -/
theorem stepRunsTheDecodedInstruction : Obligations.StepRunsTheDecodedInstruction := by
  unfold Obligations.StepRunsTheDecodedInstruction
  exact ⟨fun s bytes i hs h => step_of_holds hs h, fun s h => step_of_fetchDecode (fetchDecode_op h rfl)⟩

/-- Settles O21: fetching moves pc past the bytes, which are the encoding, and pc is in the frame of the rest. -/
theorem pcAdvancesByTheLength : Obligations.PcAdvancesByTheLength := by
  unfold Obligations.PcAdvancesByTheLength
  intro s t bytes i hs hd ht hx
  rw [step_of_holds hs hd, encode_of_decodeWhole hd, List.append_nil] at ht
  obtain ⟨_, hm, hf⟩ := exec_frame (form_ne_prefixCb_of_decodeWhole hd) ht
  cases hm
  exact hf.pc hx

end Machine

end Sys2Proof
end

section
/-! SUPPORT. The byte arrays through the bus, and the proofs of the statements about them. -/

namespace Sys2Proof.Machine

/-- An address that some array answers is a bus address (R24). -/
theorem fillAt_lt {cfg : Config} {n : Nat} {base : Byte} (h : fillAt cfg n = some base) : n < 2 ^ 16 := by
  have hr := region_range n
  cases hreg : region n <;> rw [hreg] at hr <;> simp only [Region.Range] at hr <;>
    first | omega | simp [fillAt, hreg] at h

/-- The bus reads an array's address from the array (R41). -/
theorem memRead_of_fillAt {s : Running} {a : Word} {base : Byte} (h : fillAt s.cfg a.toNat = some base) :
    memRead s a = .ok (s.mem.byteAt base a.toNat) := by
  cases hreg : region a.toNat <;> simp_all [fillAt, memRead, Running.arrayRead]

/-- A cell may be listed where its address has a fill and its byte differs from it. -/
theorem listable_iff {cfg : Config} {x : Host.Cell} :
    listable cfg x = true ↔ ∃ base, fillAt cfg x.1 = some base ∧ x.2 ≠ base := by
  unfold listable
  cases fillAt cfg x.1 <;> simp

/-- A cell listed in one canonical memory is listed in every other that reads the same. -/
theorem mem_of_same_reads {s t : Running} (hc : s.cfg = t.cfg) (hs : Memory.Wf s.cfg s.mem)
    (h : ∀ a : Word, memRead s a = memRead t a) {x : Host.Cell} (hx : x ∈ s.mem) : x ∈ t.mem := by
  obtain ⟨hrising, hlist⟩ := hs
  obtain ⟨base, hb, hne⟩ := listable_iff.1 (hlist x hx)
  have hn : (BitVec.ofNat 16 x.1).toNat = x.1 := Nat.mod_eq_of_lt (fillAt_lt hb)
  have hread := h (BitVec.ofNat 16 x.1)
  rw [memRead_of_fillAt (by rw [hn, hb]), memRead_of_fillAt (by rw [hn, ← hc, hb]), hn,
    Memory.byteAt_of_mem hrising hx, Except.ok.injEq] at hread
  have hmem : (x.1, t.mem.byteAt base x.1) ∈ t.mem := Memory.mem_of_byteAt_ne (hread ▸ hne)
  rwa [← hread] at hmem

/-- In a list of rising addresses, a cell behind the head is not the head. -/
theorem Memory.mem_tail_iff {m : Memory} {x y : Host.Cell} (h : (x :: m).Pairwise (fun x y => x.1 < y.1)) :
    y ∈ m ↔ y ∈ x :: m ∧ y ≠ x := by
  constructor
  · intro hy
    refine ⟨List.mem_cons_of_mem x hy, ?_⟩
    rintro rfl
    exact Nat.lt_irrefl _ ((List.pairwise_cons.1 h).1 y hy)
  · rintro ⟨hy, hne⟩
    exact (List.mem_cons.1 hy).resolve_left hne

/-- Two lists of rising addresses with the same cells are the same list. -/
theorem Memory.eq_of_mem_iff {m m' : Memory} (h : m.Pairwise (fun x y => x.1 < y.1))
    (h' : m'.Pairwise (fun x y => x.1 < y.1)) (hm : ∀ x, x ∈ m ↔ x ∈ m') : m = m' := by
  induction m generalizing m' with
  | nil => exact (List.eq_nil_iff_forall_not_mem.2 fun x hx => nomatch (hm x).2 hx).symm
  | cons x m ih =>
    cases m' with
    | nil => exact nomatch (hm x).1 List.mem_cons_self
    | cons y m' =>
      obtain ⟨hx, hrest⟩ := List.pairwise_cons.1 h
      obtain ⟨hy, hrest'⟩ := List.pairwise_cons.1 h'
      have hxy : x = y := by
        rcases List.mem_cons.1 ((hm x).1 List.mem_cons_self) with he | hx'
        · exact he
        · rcases List.mem_cons.1 ((hm y).2 List.mem_cons_self) with he | hy'
          · exact he.symm
          · exact absurd (hx y hy') (Nat.lt_asymm (hy x hx'))
      subst hxy
      rw [ih hrest hrest' fun z => by rw [Memory.mem_tail_iff h, Memory.mem_tail_iff h', hm z]]

/-- Settles O25: the two lists have the same cells in the same rising order. -/
theorem readsDetermineTheArrays : Obligations.ReadsDetermineTheArrays := by
  unfold Obligations.ReadsDetermineTheArrays
  intro s t hc hs ht h
  exact Memory.eq_of_mem_iff hs.1 ht.1 fun x =>
    ⟨mem_of_same_reads hc hs h, mem_of_same_reads hc.symm ht fun a => (h a).symm⟩

/-- A write into VRAM is a store into its array (R42). -/
theorem memWrite_vram {s : Running} {a : Word} (v : Byte) (h : Region.vram.Range a.toNat) :
    memWrite s a v = .ok (s.arrayWrite s.cfg.vramFill a v) := by
  simp only [memWrite, region_eq.2 h]

/-- A read of VRAM is a read of its array (R41). -/
theorem memRead_vram {s : Running} {a : Word} (h : Region.vram.Range a.toNat) :
    memRead s a = .ok (s.mem.byteAt s.cfg.vramFill.byte a.toNat) := by
  simp only [memRead, region_eq.2 h, Running.arrayRead]

/-- Settles O27: the byte's cell is at 0x8000 + j, which is no cell of another index or another array. -/
theorem vramByteIsNotVisibleElsewhere : Obligations.VramByteIsNotVisibleElsewhere := by
  unfold Obligations.VramByteIsNotVisibleElsewhere
  intro s j v hj
  have ha : (BitVec.ofNat 16 (0x8000 + j)).toNat = 0x8000 + j := Nat.mod_eq_of_lt (by omega)
  have hr : Region.vram.Range (BitVec.ofNat 16 (0x8000 + j)).toNat := by
    rw [ha]
    exact ⟨by omega, by omega⟩
  refine ⟨_, memWrite_vram v hr, ?read, ?same, fun i hi => ?vram, fun i => ?wram, fun i => ?hram, fun i => ?io⟩
  case read => rw [memRead_vram hr]; simp
  case same => simp [vramAt, ha]
  case vram => exact Memory.byteAt_put_ne _ _ v s.mem (by omega)
  case wram => exact Memory.byteAt_put_ne _ _ v s.mem (by omega)
  case hram => exact Memory.byteAt_put_ne _ _ v s.mem (by omega)
  case io => exact Memory.byteAt_put_ne _ _ v s.mem (by omega)

end Sys2Proof.Machine
end

section
/-! SUPPORT. The proofs of the statements about construction and about the driver of PPU.ly. -/

namespace Sys2Proof.Machine

/-- Settles O16: every register is zero and no cell is listed. -/
theorem constructionMeetsInvariant : Obligations.ConstructionMeetsInvariant := by
  unfold Obligations.ConstructionMeetsInvariant
  have h (cfg : Config) : Inv (State.construct cfg) :=
    ⟨Running.construct cfg, rfl, BitVec.zero_and, List.Pairwise.nil, fun _ hx => nomatch hx⟩
  exact ⟨h, h Config.standard⟩

/-- Settles O19, by the two values of LY_DRIVER. -/
theorem currentLineDriver : Obligations.CurrentLineDriver := by
  unfold Obligations.CurrentLineDriver
  refine ⟨fun s v h => ?static, fun s v h => ⟨?external, rfl, fun a ha => memRead_with_ly_ne s v ha⟩, fun f v => rfl⟩
  case static => rw [State.driveLy_running, Running.driveLy, h]
  case external => rw [State.driveLy_running, Running.driveLy, h]

end Sys2Proof.Machine
end

section
/-! SUPPORT. The byte order in arithmetic, and the proofs of the statements about the registers and the flags. -/

namespace Sys2Proof

theorem wordOf_toNat (hi lo : Byte) : (wordOf hi lo).toNat = hi.toNat * 256 + lo.toNat :=
  Nat.mod_eq_of_lt (by omega)

theorem hiByte_toNat (v : Word) : (hiByte v).toNat = v.toNat / 256 :=
  Nat.mod_eq_of_lt (by omega)

theorem loByte_toNat (v : Word) : (loByte v).toNat = v.toNat % 256 :=
  BitVec.toNat_ofNat ..

/-- The number `hi * 256 + lo` is the concatenation of the bits (R6). -/
theorem wordOf_eq_append (hi lo : Byte) : wordOf hi lo = hi ++ lo := by
  apply BitVec.eq_of_toNat_eq
  rw [wordOf_toNat, BitVec.toNat_append, ← Nat.shiftLeft_add_eq_or_of_lt lo.isLt, Nat.shiftLeft_eq]

namespace Machine

/-- The mask of F is a mask of the low nibble of AF (R13, R14). -/
theorem wordOf_masked (v : Word) : wordOf (hiByte v) (loByte v &&& 0xF0) = v &&& 0xFFF0 := by
  have hmask : (0xFFF0 : Word) = BitVec.allOnes 8 ++ (0xF0 : Byte) := rfl
  calc wordOf (hiByte v) (loByte v &&& 0xF0)
      = (hiByte v &&& BitVec.allOnes 8) ++ (loByte v &&& 0xF0) := by
        rw [wordOf_eq_append, BitVec.and_allOnes]
    _ = wordOf (hiByte v) (loByte v) &&& 0xFFF0 := by
        rw [hmask, wordOf_eq_append, BitVec.and_append]
    _ = v &&& 0xFFF0 := by rw [wordOf_hiByte_loByte]

theorem Running.get16_set16_same (s : Running) {p : Reg16} (v : Word) (h : p ≠ .af) :
    (s.set16 p v).get16 p = v := by
  cases p with
  | af => exact absurd rfl h
  | bc => exact wordOf_hiByte_loByte v
  | de => exact wordOf_hiByte_loByte v
  | hl => exact wordOf_hiByte_loByte v
  | sp => rfl
  | pc => rfl

/-- The byte of four flags as a number (R141). -/
theorem Flags.byte_toNat (x : Flags) :
    x.byte.toNat = x.z.toNat * 0x80 + x.n.toNat * 0x40 + x.h.toNat * 0x20 + x.c.toNat * 0x10 := by
  rcases x with ⟨z, n, h, c⟩
  revert z n h c
  decide

/-- Settles O28, accessor by accessor. -/
theorem registerViews : Obligations.RegisterViews := by
  unfold Obligations.RegisterViews
  refine ⟨fun s r v => ?set8, fun s v => ⟨s.setF_f v, s.setF_get8 v⟩, fun s => ?get16,
    fun s p v hp => ⟨s.get16_set16_same v hp, s.set16_f v hp⟩, fun s v => wordOf_masked v, fun s v => ?halves⟩
  case set8 => exact ⟨s.get8_set8_same r v, s.set8_f r v, fun q hq => s.get8_set8_ne v hq⟩
  case get16 =>
    exact ⟨wordOf_toNat .., wordOf_toNat .., wordOf_toNat .., wordOf_toNat .., rfl, rfl⟩
  case halves =>
    exact ⟨⟨hiByte_toNat v, loByte_toNat v⟩, ⟨hiByte_toNat v, loByte_toNat v⟩, ⟨hiByte_toNat v, loByte_toNat v⟩,
      hiByte_toNat v, rfl⟩

/-- Settles O29: `flags` reads the four bits, and a flag write puts the byte of the four flags, whose low nibble is zero,
into F. -/
theorem flagBitPositions : Obligations.FlagBitPositions := by
  unfold Obligations.FlagBitPositions
  refine ⟨fun s => ⟨rfl, rfl, rfl, rfl⟩, fun s x => ⟨s.flags_setFlags x, ?low, ?value, rfl⟩⟩
  case low => rw [Running.setFlags_f, Flags.byte_low]
  case value => rw [Running.setFlags_f, Flags.byte_toNat]

end Machine

end Sys2Proof
end

section
/-! SUPPORT. What a bus read answers at each target of the address decode and what a bus write stores, and the proofs of
the statements about single accesses. -/

namespace Sys2Proof.Machine

/-! ### Reads, by target (R41) -/

theorem readBlob_of_getElem? {blob : List Byte} {i : Nat} {v : Byte} (a : Word) (h : blob[i]? = some v) :
    readBlob blob i a = .ok v := by
  simp only [readBlob, h]

theorem readBlob_past {blob : List Byte} {i : Nat} (a : Word) (h : blob.length ≤ i) :
    readBlob blob i a = .error (.inputError a) := by
  simp only [readBlob, List.getElem?_eq_none h, raise]

theorem memRead_bootRom {s : Running} {a : Word} (h : Region.bootRom.Range a.toNat) :
    memRead s a = readBlob s.cfg.boot a.toNat a := by
  simp only [memRead, region_eq.2 h]

theorem memRead_cartRom {s : Running} {a : Word} (h : Region.cartRom.Range a.toNat) :
    memRead s a = readBlob s.cfg.cart (a.toNat - s.cfg.cartRebase.val) a := by
  simp only [memRead, region_eq.2 h]

theorem memRead_wram {s : Running} {a : Word} (h : Region.wram.Range a.toNat) :
    memRead s a = .ok (s.mem.byteAt s.cfg.wramFill.byte a.toNat) := by
  simp only [memRead, region_eq.2 h, Running.arrayRead]

theorem memRead_io {s : Running} {a : Word} (h : Region.io.Range a.toNat) :
    memRead s a = .ok (s.mem.byteAt s.cfg.ioFill.byte a.toNat) := by
  simp only [memRead, region_eq.2 h, Running.arrayRead]

theorem memRead_hram {s : Running} {a : Word} (h : Region.hram.Range a.toNat) :
    memRead s a = .ok (s.mem.byteAt s.cfg.hramFill.byte a.toNat) := by
  simp only [memRead, region_eq.2 h, Running.arrayRead]

theorem memRead_control (s : Running) : memRead s 0xFF40 = .ok s.control := rfl

theorem memRead_scrollY (s : Running) : memRead s 0xFF42 = .ok s.scrollY := rfl

/-- No store answers a read outside the table of R45. -/
theorem memRead_unmapped {s : Running} {a : Word} (h : Unmapped a) : memRead s a = .error (.busError .read a) := by
  have hr : region a.toNat = .unmapped := region_eq.2 (h.imp_right (.imp_right fun ha => Nat.le_of_eq ha.symm))
  simp only [memRead, hr, raise]

/-- Settles O22, line by line of R41: each clause is the read of one target, and an array's index is the address less the
array's first address. -/
theorem busReadByAddress : Obligations.BusReadByAddress := by
  unfold Obligations.BusReadByAddress
  intro s a
  refine ⟨fun h v hv => ?boot, fun h hlen => ?bootPast, fun h h' v hv => ?cart, fun h h' hlen => ?cartPast,
    fun h h' => ?vram, fun h h' => ?wram, ?control, ?scrollY, ?ly, fun h h' h₁ h₂ h₃ => ?io, fun h h' => ?hram,
    memRead_unmapped⟩
  case boot => rw [memRead_bootRom h, readBlob_of_getElem? a hv]
  case bootPast => rw [memRead_bootRom h, readBlob_past a hlen]
  case cart => rw [memRead_cartRom ⟨h, h'⟩, readBlob_of_getElem? a hv]
  case cartPast => rw [memRead_cartRom ⟨h, h'⟩, readBlob_past a hlen]
  case vram => rw [memRead_vram ⟨h, h'⟩, vramAt, Nat.add_sub_of_le h]
  case wram => rw [memRead_wram ⟨h, h'⟩, wramAt, Nat.add_sub_of_le h]
  case control => rintro rfl; exact memRead_control s
  case scrollY => rintro rfl; exact memRead_scrollY s
  case ly => rintro rfl; exact memRead_ly s
  case io =>
    have hr : Region.io.Range a.toNat :=
      ⟨h, h', fun e => h₁ (word_eq.2 e), fun e => h₂ (word_eq.2 e), fun e => h₃ (word_eq.2 e)⟩
    rw [memRead_io hr, ioAt, Nat.add_sub_of_le h]
  case hram => rw [memRead_hram ⟨h, h'⟩, hramAt, Nat.add_sub_of_le h]

/-! ### Writes (R42, R50) -/

/-- A bus write to a writable address is answered. -/
theorem memWrite_of_writable {s : Running} {a : Word} (v : Byte) (h : Writable a) : ∃ t, memWrite s a v = .ok t := by
  have hr := region_range a.toNat
  unfold memWrite
  cases hreg : region a.toNat <;> rw [hreg] at hr <;> simp only [Region.Range] at hr
  case vram | wram | ppuControl | ppuScrollY | io | hram => exact ⟨_, rfl⟩
  case bootRom | cartRom | ppuLy | unmapped => omega

/-- The bus writes an array's address into the array. -/
theorem memWrite_of_fillAt {s : Running} {a : Word} {base : Byte} (v : Byte) (h : fillAt s.cfg a.toNat = some base) :
    memWrite s a v = .ok { s with mem := s.mem.put base a.toNat v } := by
  cases hreg : region a.toNat <;> simp_all [fillAt, memWrite, Running.arrayWrite]

/-- A written byte reads back. -/
theorem memRead_memWrite_same {s t : Running} {a : Word} {v : Byte} (h : memWrite s a v = .ok t) :
    memRead t a = .ok v := by
  obtain ⟨x, hx, rfl⟩ | ⟨hr, rfl⟩ | ⟨hr, rfl⟩ := memWrite_cases h
  · rw [memRead_of_fillAt (s := s.arrayWrite x a v) hx, Running.arrayWrite_mem, Memory.byteAt_put_same]
  · simp only [memRead, hr]
  · simp only [memRead, hr]

/-- Writing the byte an address was just given changes nothing. -/
theorem memWrite_again {s t : Running} {a : Word} {v : Byte} (h : memWrite s a v = .ok t) : memWrite t a v = .ok t := by
  obtain ⟨x, hx, rfl⟩ | ⟨hr, rfl⟩ | ⟨hr, rfl⟩ := memWrite_cases h
  · rw [memWrite_of_fillAt (s := s.arrayWrite x a v) v hx, Running.arrayWrite_mem, Memory.put_put]
    rfl
  · simp only [memWrite, hr]
  · simp only [memWrite, hr]

/-- A bus write elsewhere leaves the PPU control byte as before. -/
theorem memWrite_control {s t : Running} {a : Word} {v : Byte} (h : memWrite s a v = .ok t) (ha : a ≠ 0xFF40) :
    t.control = s.control := by
  obtain ⟨x, -, rfl⟩ | ⟨hr, -⟩ | ⟨-, rfl⟩ := memWrite_cases h
  · rfl
  · exact (ha (word_eq.2 (region_eq.1 hr))).elim
  · rfl

/-- A bus write elsewhere leaves the PPU scroll byte as before. -/
theorem memWrite_scrollY {s t : Running} {a : Word} {v : Byte} (h : memWrite s a v = .ok t) (ha : a ≠ 0xFF42) :
    t.scrollY = s.scrollY := by
  obtain ⟨x, -, rfl⟩ | ⟨-, rfl⟩ | ⟨hr, -⟩ := memWrite_cases h
  · rfl
  · rfl
  · exact (ha (word_eq.2 (region_eq.1 hr))).elim

/-- The writable addresses are all but the ROM ranges, PPU.ly and the unmapped ones (R45, R51, R52). -/
theorem writable_iff (a : Word) : Writable a ↔ ¬ (a.toNat ≤ 0x7FFF ∨ a = 0xFF44 ∨ Unmapped a) := by
  have hlt := a.isLt
  have hly : a = 0xFF44 ↔ a.toNat = 0xFF44 := word_eq
  rw [hly]
  omega

/-- Settles O23: a writable address answers, by what a bus write stores and leaves; any other address is a BusError. -/
theorem busWriteByAddress : Obligations.BusWriteByAddress := by
  unfold Obligations.BusWriteByAddress
  intro s a v
  refine ⟨fun hw => ?answered, memWrite_of_not_writable, writable_iff a⟩
  case answered =>
    obtain ⟨t, ht⟩ := memWrite_of_writable (s := s) v hw
    have hstored : StoredAt a v s t := ⟨memRead_memWrite_same ht, fun _ hx => memRead_memWrite_ne ht hx⟩
    exact ⟨t, ht, memWrite_sameCore ht, hstored, memWrite_control ht, memWrite_scrollY ht⟩

/-- Settles O24: the second store is the first one again, and the byte reads back. -/
theorem writesAreIdempotent : Obligations.WritesAreIdempotent := by
  unfold Obligations.WritesAreIdempotent
  intro s t a v h
  exact ⟨memWrite_again h, memRead_memWrite_same h⟩

/-- Settles O26: a fetch is a bus read at pc, which the written byte answers. -/
theorem storeIsSeenByTheNextFetch : Obligations.StoreIsSeenByTheNextFetch := by
  unfold Obligations.StoreIsSeenByTheNextFetch
  intro s t a v h
  have hread : memRead { t with pc := a } a = .ok v := by rw [memRead_pc, memRead_memWrite_same h]
  exact fetch8_of_read (s := { t with pc := a }) hread

end Sys2Proof.Machine
end

section
/-! SUPPORT. The encoder against the decoder and the spec's lists: the round trip, which bytes are admitted and how long
an instruction is, what the driver is shown of the one that ran, and the proofs of the statements about them. -/

namespace Sys2Proof

/-! ### Decoding an encoding -/

/-- The two tables between an instruction and its form (R81) are inverse. -/
theorem toInstr_form (i : Instr) : i.form.toInstr = i := by
  cases i <;> rfl

/-- A first byte with two operand bytes is decoded with the word whose bytes they are. -/
theorem decode_d16 {op : Byte} {mk : Word → Instr} (he : primary op = some (.d16 mk)) (n : Word) (rest : List Byte) :
    decode (op :: loByte n :: hiByte n :: rest) = .ok (mk n, rest) := by
  simp only [decode, he, wordOf_hiByte_loByte]

/-- `decode` reads the bytes of every form but the CB pairs as its instruction, whatever follows. -/
theorem decode_encode (x : Form) (hx : ∀ o, x ≠ .cb o) (rest : List Byte) :
    decode (x.encode ++ rest) = .ok (x.toInstr, rest) := by
  cases x
  case cb o => exact (hx o rfl).elim
  case ldPairImm p n => cases p <;> exact decode_d16 rfl n rest
  case ldIndAbsA n => exact decode_d16 rfl n rest
  case call n => exact decode_d16 rfl n rest
  case ldRegReg dst src => cases dst <;> cases src <;> rfl
  case ldRegIndHl r => cases r <;> rfl
  case ldRegImm r n => cases r <;> rfl
  case incReg r => cases r <;> rfl
  case decReg r => cases r <;> rfl
  case incPair p => cases p <;> rfl
  case decPair p => cases p <;> rfl
  case cpReg r => cases r <;> rfl
  case jrCond cc e => cases cc <;> rfl
  case push q => cases q <;> rfl
  case pop q => cases q <;> rfl
  all_goals rfl

/-- The CB map reads the byte of every CB operation as that operation (R81, R88). -/
theorem decodeCbOp_of_encode (o : CbOp) : decodeCbOp o.encode = some o := by
  cases o with
  | rl r => cases r <;> rfl
  | bit b r => revert b; cases r <;> decide

theorem decodeCb_of_op {op2 : Byte} {o : CbOp} (h : decodeCbOp op2 = some o) : decodeCb op2 = some o.toInstr := by
  rw [decodeCb, h, Option.map_some]

/-- What `decode` accepts, `PREFIX CB` excepted, is a whole instruction. -/
theorem decodeWhole_of_decode {bytes rest : List Byte} {i : Instr} (h : decode bytes = .ok (i, rest))
    (hi : i ≠ .prefixCb) : decodeWhole bytes = .ok (i, rest) := by
  unfold decodeWhole
  split
  · next hd => rw [h] at hd; cases hd; exact (hi rfl).elim
  · next hd => rw [h] at hd; cases hd; exact (hi rfl).elim
  · exact h

/-- 0xCB and an admitted second byte are a whole instruction (R88, R93). -/
theorem decodeWhole_pair {op2 : Byte} {i : Instr} (h : decodeCb op2 = some i) (rest : List Byte) :
    decodeWhole (0xCB :: op2 :: rest) = .ok (i, rest) := by
  have hd : decode (0xCB :: op2 :: rest) = .ok (.prefixCb, op2 :: rest) := rfl
  simp only [decodeWhole, hd, h]

/-- A whole instruction's encoding decodes to it, whatever bytes follow. -/
theorem decodeWhole_encode {i : Instr} (hi : i ≠ .prefixCb) (rest : List Byte) :
    decodeWhole (encode i ++ rest) = .ok (i, rest) := by
  by_cases hx : ∃ o, i.form = .cb o
  · obtain ⟨o, ho⟩ := hx
    obtain rfl : o.toInstr = i := by rw [← toInstr_form i, ho]; rfl
    rw [encode_cb]
    exact decodeWhole_pair (decodeCb_of_op (decodeCbOp_of_encode o)) rest
  · have hd := decode_encode i.form (fun o ho => hx ⟨o, ho⟩) rest
    rw [toInstr_form] at hd
    exact decodeWhole_of_decode hd hi

/-- Settles O1: the primary map reads a form's pattern back, and the CB map the second byte of a pair. -/
theorem decodeOfEncodeGivesTheInstruction : Obligations.DecodeOfEncodeGivesTheInstruction := by
  unfold Obligations.DecodeOfEncodeGivesTheInstruction
  exact ⟨fun i rest hi => decodeWhole_encode hi rest, decode_encode .prefixCb nofun⟩

/-- Settles O2: the decoder's two maps agree with the patterns of the encoder. -/
theorem acceptedBytesAreTheEncoding : Obligations.AcceptedBytesAreTheEncoding := by
  unfold Obligations.AcceptedBytesAreTheEncoding
  exact fun bytes i rest h => encode_of_decodeWhole h

/-! ### The decoder against the spec's lists -/

/-- The number of operand bytes an entry of the primary map takes (R80). -/
def Entry.operandBytes : Entry → Nat
  | .op _ => 0
  | .d8 _ => 1
  | .d16 _ => 2

/-- The primary map admits the bytes of R87's list. -/
theorem primary_isSome (op : Byte) : (primary op).isSome = admittedPrimary op := by
  revert op
  decide

/-- The format of an admitted first byte has as many operand bytes as the spec's lists say (R86). -/
theorem operandBytes_of_primary {op : Byte} {e : Entry} (h : primary op = some e) :
    e.operandBytes = operandCount op := by
  unfold primary at h
  split at h <;> cases h <;> rfl

theorem admitted_of_primary {op : Byte} {e : Entry} (h : primary op = some e) : admittedPrimary op = true := by
  rw [← primary_isSome, h, Option.isSome_some]

theorem primary_eq_none {op : Byte} (h : admittedPrimary op = false) : primary op = none := by
  rw [← Option.isNone_iff_eq_none, ← Option.isSome_eq_false_iff, primary_isSome, h]

/-- The CB map admits the bytes of R88. -/
theorem decodeCb_isSome (op2 : Byte) : (decodeCb op2).isSome = admittedCb op2 := by
  revert op2
  decide

theorem decodeCbOp_eq_none {op2 : Byte} (h : admittedCb op2 = false) : decodeCbOp op2 = none := by
  rw [← Option.isNone_iff_eq_none, ← Option.isSome_eq_false_iff, ← Option.isSome_map (f := CbOp.toInstr)]
  exact (decodeCb_isSome op2).trans h

/-- Settles O3: byte by byte through the two tables. -/
theorem decoderAdmitsExactlyTheListedBytes : Obligations.DecoderAdmitsExactlyTheListedBytes := by
  unfold Obligations.DecoderAdmitsExactlyTheListedBytes
  exact ⟨primary_isSome, decodeCb_isSome, rfl, rfl⟩

/-- Settles O5, word by word. -/
theorem sampleWordsDecode : Obligations.SampleWordsDecode := by
  unfold Obligations.SampleWordsDecode
  exact ⟨rfl, rfl, rfl, rfl, rfl, rfl, rfl, rfl, rfl, rfl, rfl, rfl, rfl, rfl, rfl, rfl⟩

/-! ### Well-formed bytes and lengths -/

/-- An entry with as many operand bytes as follow reads them all. -/
theorem decode_of_operandBytes {op : Byte} {e : Entry} {rest : List Byte} (he : primary op = some e)
    (hn : rest.length = e.operandBytes) : ∃ i, decode (op :: rest) = .ok (i, []) := by
  cases e with
  | op i =>
    obtain rfl : rest = [] := List.length_eq_zero_iff.1 hn
    exact ⟨i, by simp only [decode, he]⟩
  | d8 mk =>
    obtain ⟨n, rfl⟩ := List.length_eq_one_iff.1 hn
    exact ⟨mk n, by simp only [decode, he]⟩
  | d16 mk =>
    match rest, hn with
    | [lo, hi], _ => exact ⟨mk (wordOf hi lo), by simp only [decode, he]⟩

/-- What follows an accepted first byte is the operand bytes its entry takes. -/
theorem operandBytes_of_decode {bytes : List Byte} {i : Instr} (h : decode bytes = .ok (i, [])) :
    ∃ op rest e, bytes = op :: rest ∧ primary op = some e ∧ rest.length = e.operandBytes := by
  obtain ⟨op, rfl, he⟩ | ⟨op, n, mk, rfl, he, -⟩ | ⟨op, lo, hi, mk, rfl, he, -⟩ := decode_ok h
  · exact ⟨op, [], _, rfl, he, rfl⟩
  · exact ⟨op, [n], _, rfl, he, rfl⟩
  · exact ⟨op, [lo, hi], _, rfl, he, rfl⟩

/-- Well-formed bytes are a CB pair, or an admitted first byte other than 0xCB with its operand bytes (R80). -/
theorem wellFormedBytes_iff {bytes : List Byte} :
    wellFormedBytes bytes = true ↔
      (∃ op2, bytes = [0xCB, op2] ∧ admittedCb op2 = true) ∨
      ∃ op rest, bytes = op :: rest ∧ op ≠ 0xCB ∧ admittedPrimary op = true ∧ rest.length = operandCount op := by
  cases bytes with
  | nil => exact ⟨nofun, by rintro (⟨_, h, _⟩ | ⟨_, _, h, _⟩) <;> cases h⟩
  | cons op rest =>
    by_cases h : op = 0xCB
    · subst h
      constructor
      · intro hw
        match rest with
        | [op2] => exact .inl ⟨op2, rfl, hw⟩
      · rintro (⟨op2, hb, ha⟩ | ⟨op', rest', hb, hop, -⟩)
        · cases hb; exact ha
        · cases hb; exact (hop rfl).elim
    · have hw : wellFormedBytes (op :: rest) = (admittedPrimary op && rest.length == operandCount op) :=
        if_neg (fun he => h (eq_of_beq he))
      rw [hw, Bool.and_eq_true, beq_iff_eq]
      constructor
      · exact fun ⟨ha, hn⟩ => .inr ⟨op, rest, rfl, h, ha, hn⟩
      · rintro (⟨op2, hb, -⟩ | ⟨op', rest', hb, -, ha, hn⟩)
        · cases hb; exact (h rfl).elim
        · cases hb; exact ⟨ha, hn⟩

/-- Well-formed bytes decode to a whole instruction. -/
theorem decodeWhole_of_wellFormed {bytes : List Byte} (h : wellFormedBytes bytes = true) :
    ∃ i, decodeWhole bytes = .ok (i, []) := by
  obtain ⟨op2, rfl, ha⟩ | ⟨op, rest, rfl, hop, ha, hn⟩ := wellFormedBytes_iff.1 h
  · rw [← decodeCb_isSome] at ha
    obtain ⟨i, hi⟩ := Option.isSome_iff_exists.1 ha
    exact ⟨i, decodeWhole_pair hi []⟩
  · rw [← primary_isSome] at ha
    obtain ⟨e, he⟩ := Option.isSome_iff_exists.1 ha
    obtain ⟨i, hd⟩ := decode_of_operandBytes he (hn.trans (operandBytes_of_primary he).symm)
    refine ⟨i, decodeWhole_of_decode hd ?_⟩
    rintro rfl
    exact hop (List.cons.inj (encode_of_decode hd)).1

/-- A whole instruction's bytes are well formed. -/
theorem wellFormed_of_decodeWhole {bytes : List Byte} {i : Instr} (h : decodeWhole bytes = .ok (i, [])) :
    wellFormedBytes bytes = true := by
  obtain hd | ⟨op2, o, hd, ho, -⟩ := decodeWhole_ok h
  · obtain ⟨op, rest, e, rfl, he, hn⟩ := operandBytes_of_decode hd
    refine wellFormedBytes_iff.2
      (.inr ⟨op, rest, rfl, ?_, admitted_of_primary he, hn.trans (operandBytes_of_primary he)⟩)
    rintro rfl
    cases hd
    exact form_ne_prefixCb_of_decodeWhole h rfl
  · have ha : admittedCb op2 = true := by
      rw [← decodeCb_isSome, decodeCb_of_op ho, Option.isSome_some]
    exact wellFormedBytes_iff.2 (.inl ⟨op2, encode_of_decode hd, ha⟩)

theorem operandCount_le_two (op : Byte) : operandCount op ≤ 2 := by
  unfold operandCount
  split
  · omega
  · split <;> omega

/-- The first byte of an encoding decides its length: that byte and those after it (R80, R86). -/
theorem Instr.length_of_head {i : Instr} (hi : i ≠ .prefixCb) {op : Byte} (h : (encode i).head? = some op) :
    i.length = 1 + Machine.bytesAfter op := by
  have hd : decodeWhole (encode i) = .ok (i, []) := by simpa using decodeWhole_encode hi []
  unfold Instr.length Machine.bytesAfter
  obtain ⟨op2, hb, -⟩ | ⟨op', rest, hb, hop, -, hn⟩ := wellFormedBytes_iff.1 (wellFormed_of_decodeWhole hd)
  · rw [hb] at h ⊢
    cases h
    rfl
  · rw [hb] at h ⊢
    cases h
    rw [if_neg hop, List.length_cons, hn, Nat.add_comm]

theorem encode_ne_nil (i : Instr) : encode i ≠ [] := by
  unfold encode
  cases i.form <;> exact List.cons_ne_nil _ _

/-- An instruction is 1, 2 or 3 bytes long (R80). -/
theorem Instr.length_bounds (i : Instr) : 1 ≤ i.length ∧ i.length ≤ 3 := by
  by_cases hi : i = .prefixCb
  · subst hi
    decide
  · have hl := Instr.length_of_head hi (List.head?_eq_some_head (encode_ne_nil i))
    have h2 := operandCount_le_two ((encode i).head (encode_ne_nil i))
    unfold Machine.bytesAfter at hl
    split at hl <;> omega

/-- Settles O4: a first byte fixes its operand bytes, in the spec's lists as in the decoder. -/
theorem wellFormedBytesAreWholeInstructions : Obligations.WellFormedBytesAreWholeInstructions := by
  unfold Obligations.WellFormedBytesAreWholeInstructions
  refine ⟨fun bytes => ⟨decodeWhole_of_wellFormed, fun ⟨i, h⟩ => wellFormed_of_decodeWhole h⟩, Instr.length_bounds, ?_⟩
  intro i j hi hj h
  have hhead := List.head?_eq_some_head (encode_ne_nil j)
  rw [Instr.length_of_head hi (h.trans hhead), Instr.length_of_head hj hhead]

namespace Machine

/-! ### What the step does with unadmitted bytes -/

/-- Settles O8: the fetch ends at the first byte. -/
theorem unadmittedFirstByteRaisesDecodeError : Obligations.UnadmittedFirstByteRaisesDecodeError := by
  unfold Obligations.UnadmittedFirstByteRaisesDecodeError
  intro s op hr ha
  rw [step_running, fetchDecode_unadmitted hr (primary_eq_none ha)]

/-- Settles O9: the step runs `PREFIX CB`, whose fetch answers the unadmitted byte. -/
theorem unadmittedCbByteRaisesDecodeError : Obligations.UnadmittedCbByteRaisesDecodeError := by
  unfold Obligations.UnadmittedCbByteRaisesDecodeError
  intro s op2 h₀ h₁ ha
  have h₁' : memRead { s with pc := s.pc + 1 } (s.pc + 1) = .ok op2 := by rw [memRead_pc, h₁]
  calc step (.running s)
      = execPrefixCb (.running { s with pc := s.pc + 1 }) := step_of_fetchDecode (fetchDecode_op h₀ rfl)
    _ = .fault (.decodeErrorCb op2) := execPrefixCb_unadmitted h₁' (decodeCbOp_eq_none ha)

/-! ### No refusal -/

/-- Every arm of `exec` is an operation, which answers a state or a fault. -/
theorem exec_not_refused (i : Instr) (s : State) (r : Refusal) : exec i s ≠ .refused r := by
  rw [exec_eq]
  obtain ⟨m, rfl⟩ | ⟨f, rfl⟩ := State.cases s
  · exact finish_not_refused _ r
  · exact nofun

/-- Settles O13: a step faults or runs an arm of `exec`. -/
theorem nothingIsRefused : Obligations.NothingIsRefused := by
  unfold Obligations.NothingIsRefused
  refine ⟨exec_not_refused, fun s r => ?step⟩
  case step =>
    obtain ⟨m, rfl⟩ | ⟨f, rfl⟩ := State.cases s
    · rw [step_running]
      split
      · exact nofun
      · exact exec_not_refused _ _ r
    · exact nofun

/-! ### What the driver is shown -/

/-- The instruction shown at pc is the one a whole decoding of its bytes gives, the inner one of a CB pair (R93). -/
theorem instrAtPc_of_holds {s : Running} {bytes : List Byte} {i : Instr} (hs : Holds s s.pc bytes)
    (h : decodeWhole bytes = .ok (i, [])) : instrAtPc s = .ok i := by
  obtain hd | ⟨op2, o, hd, ho, rfl⟩ := decodeWhole_ok h
  · unfold instrAtPc
    rw [fetchDecode_of_holds hs hd]
    split
    · next hf => cases hf
    · next hf => cases hf; exact (form_ne_prefixCb_of_decodeWhole h rfl).elim
    · next hf => cases hf; rfl
  · have hb : bytes = [0xCB, op2] := encode_of_decode hd
    have hf : fetchDecode s = .ok (.prefixCb, { s with pc := s.pc + 1 }) := fetchDecode_of_holds hs hd
    have h₁ : memRead { s with pc := s.pc + 1 } (s.pc + 1) = .ok op2 := by
      subst hb
      rw [memRead_pc]
      exact hs 1 (by simp)
    simp only [instrAtPc, hf, fetch8_of_read h₁, decodeCb_of_op ho]

/-- A step that answers a next state reports it with the instruction at pc (R236). -/
theorem stepReport_of_next {s : Running} {t : State} {i : Instr} (hi : instrAtPc s = .ok i)
    (h : step (.running s) = .next t) : stepReport (.running s) = some (i, t) := by
  simp only [stepReport, h, inspect, Option.map_some, hi]

/-- The opcode byte of an instruction that is no CB pair is its first byte (R94). -/
theorem opcodeByte_of_not_cb {i : Instr} (hi : ∀ o, i.form ≠ .cb o) : some (opcodeByte i) = (encode i).head? := by
  unfold opcodeByte encode
  cases hx : i.form
  case cb o => exact (hi o hx).elim
  all_goals rfl

/-- The opcode byte of a CB pair is its second byte (decision D25). -/
theorem opcodeByte_cb (o : CbOp) : opcodeByte o.toInstr = o.encode := by
  have hx : o.toInstr.form = .cb o := form_toInstr (.cb o)
  simp only [opcodeByte, hx]

/-- Outside the CB instructions the reported length is the number of bytes (R80, R94). -/
theorem metadata_length {i : Instr} (hi : ∀ o, i.form ≠ .cb o) (hp : i ≠ .prefixCb) :
    (metadata i).length = i.length := by
  simp only [metadata, Instr.length, encode]
  split
  · next o hx => exact (hi o hx).elim
  · next hx => exact (hp (by rw [← toInstr_form i, hx]; rfl)).elim
  · rfl

/-- The free length of a CB instruction is 1 or 2 (decision D25, conflict C9). -/
theorem metadata_length_cb {i : Instr} (hi : i.form = .prefixCb ∨ ∃ o, i.form = .cb o) :
    (metadata i).length = 1 ∨ (metadata i).length = 2 := by
  have hl : (metadata i).length = if Config.cbLengthIsTwo i then 2 else 1 := by
    obtain hx | ⟨o, hx⟩ := hi <;> simp only [metadata, hx]
  rw [hl]
  split
  · exact .inr rfl
  · exact .inl rfl

/-- Settles O14: the report names the instruction the bytes at pc decode to, and its metadata follows its form. -/
theorem stepReportsTheInstructionThatRan : Obligations.StepReportsTheInstructionThatRan := by
  unfold Obligations.StepReportsTheInstructionThatRan
  refine ⟨fun s t bytes i hs hd ht => stepReport_of_next (instrAtPc_of_holds hs hd) ht,
    fun i hi => ⟨opcodeByte_of_not_cb hi, metadata_length hi⟩,
    fun o => ⟨?pair, metadata_length_cb (.inr ⟨o, form_toInstr (.cb o)⟩)⟩,
    metadata_length_cb (.inl rfl),
    fun s => ⟨rfl, rfl, rfl⟩,
    fun f => ⟨rfl, rfl, rfl⟩⟩
  case pair =>
    rw [encode_cb, ← opcodeByte_cb]
    rfl

end Machine

end Sys2Proof
end

section
/-! SUPPORT. NOP and the load family: the faults of operand fetches, a Load by its source and its destination, and the
proofs of the statements about them. -/

namespace Sys2Proof.Machine

/-! ### Bytes and operand fetches (R81 to R83) -/

/-- The bytes of the instruction of a form. -/
theorem encode_toInstr (x : Form) : encode x.toInstr = x.encode :=
  congrArg Form.encode (form_toInstr x)

/-- The operand fetch faults of a first byte that takes one operand byte. -/
theorem operandFetchFaults_d8 {op : Byte} {mk : Byte → Instr} (he : primary op = some (.d8 mk)) :
    OperandFetchFaults op false := by
  intro s f h
  refine ⟨fun h₁ => ?_, nofun⟩
  rw [step_running, fetchDecode_d8_fault h he h₁]

/-- The operand fetch faults of a first byte that takes two operand bytes. -/
theorem operandFetchFaults_d16 {op : Byte} {mk : Word → Instr} (he : primary op = some (.d16 mk)) :
    OperandFetchFaults op true := by
  intro s f h
  refine ⟨fun h₁ => ?first, fun _ lo h₁ h₂ => ?second⟩
  case first => rw [step_running, fetchDecode_d16_fault h he h₁]
  case second => rw [step_running, fetchDecode_d16_second_fault h he h₁ h₂]

/-- The byte of `LD r,d8` (R113) takes one operand byte. -/
theorem primary_ldRegImm (r : Reg8) : ∃ mk, primary (0x06 + 8 * regNumber r) = some (.d8 mk) := by
  cases r <;> exact ⟨_, rfl⟩

/-! ### Loads into a register (R111) -/

/-- A source that is a byte reaches a general register as that byte: the widening is undone by the commit. -/
theorem load_reg8_of_byte {s : Running} {src : Src} {v : Byte} (r : Reg8) (h : resolve src s = .ok (zext16 v)) :
    load (.reg8 r) src s = .ok (s.set8 r v) := by
  simp only [load, h, commit, loByte_zext16]

/-- The byte at a pair's address reaches a general register. -/
theorem load_indirect_of_read {s : Running} {p : Reg16} {v : Byte} (r : Reg8) (h : memRead s (s.get16 p) = .ok v) :
    load (.reg8 r) (.indirect p) s = .ok (s.set8 r v) :=
  load_reg8_of_byte r (by simp only [resolve, h])

/-- The fault of a source's read is the fault of the Load. -/
theorem load_indirect_of_fault {s : Running} {p : Reg16} {f : Fault} (r : Reg8)
    (h : memRead s (s.get16 p) = .error f) : load (.reg8 r) (.indirect p) s = .error f := by
  simp only [load, resolve, h]

/-- A read of a ROM address past the end of its blob is an InputError (R43). -/
theorem memRead_pastBlob {s : Running} {a : Word} (h : PastBlob s a) : memRead s a = .error (.inputError a) := by
  obtain ⟨ha, hlen⟩ | ⟨ha, ha', hlen⟩ := h
  · rw [memRead_bootRom ha, readBlob_past a hlen]
  · rw [memRead_cartRom ⟨ha, ha'⟩, readBlob_past a hlen]

/-- An instruction that loads a register from a pair's address, by what answers there. -/
theorem exec_load_indirect {i : Instr} {r : Reg8} {p : Reg16}
    (hi : formOperation i.form = load (.reg8 r) (.indirect p)) (s : Running) :
    (Readable s (s.get16 p) → ∃ v, memRead s (s.get16 p) = .ok v ∧
      exec i (.running s) = .next (.running (s.set8 r v))) ∧
    (Unmapped (s.get16 p) → exec i (.running s) = .fault (.busError .read (s.get16 p))) ∧
    (PastBlob s (s.get16 p) → exec i (.running s) = .fault (.inputError (s.get16 p))) := by
  rw [exec_eq, hi, run_running]
  refine ⟨fun h => ?readable, fun h => ?unmapped, fun h => ?pastBlob⟩
  case readable =>
    obtain ⟨v, hv⟩ := memRead_of_readable h
    exact ⟨v, hv, by rw [load_indirect_of_read r hv, finish]⟩
  case unmapped => rw [load_indirect_of_fault r (memRead_unmapped h), finish]
  case pastBlob => rw [load_indirect_of_fault r (memRead_pastBlob h), finish]

/-! ### Stores of the accumulator (R111, R119 to R123) -/

/-- A bus write to a writable address stores its byte and leaves everything else. -/
theorem memWrite_stores (s : Running) {a : Word} (v : Byte) (h : Writable a) :
    ∃ t, memWrite s a v = .ok t ∧ SameCore s t ∧ StoredAt a v s t := by
  obtain ⟨t, ht, hcore, hstored, -, -⟩ := (busWriteByAddress s a v).1 h
  exact ⟨t, ht, hcore, hstored⟩

/-- The byte a Load stores from A is A. -/
theorem memWrite_loByte_a (s : Running) (a : Word) : memWrite s a (loByte (zext16 s.a)) = memWrite s a s.a := by
  rw [loByte_zext16]

/-- An instruction that is one store of A, by whether the address is writable. -/
theorem exec_store {i : Instr} {s : Running} {a : Word} (hi : formOperation i.form s = memWrite s a s.a) :
    (Writable a → ∃ t, exec i (.running s) = .next (.running t) ∧ SameCore s t ∧ StoredAt a s.a s t) ∧
    (¬ Writable a → exec i (.running s) = .fault (.busError .write a)) := by
  rw [exec_eq, run_running, hi]
  refine ⟨fun h => ?answered, fun h => ?fault⟩
  case answered =>
    obtain ⟨t, ht, hcore, hstored⟩ := memWrite_stores s s.a h
    exact ⟨t, by rw [ht, finish], hcore, hstored⟩
  case fault => rw [memWrite_of_not_writable h, finish]

/-- The paged addresses are 0xFF00 to 0xFFFF (R86). -/
theorem pagedAddr_toNat (n : Byte) : (pagedAddr n).toNat = 0xFF00 + n.toNat := by
  have hlt := n.isLt
  have hpage : (0xFF00 : Word).toNat = 0xFF00 := rfl
  simp only [pagedAddr, zext16, BitVec.toNat_add, BitVec.toNat_setWidth, hpage]
  omega

/-- The page is writable but for PPU.ly and its last address (R45, R52). -/
theorem writable_pagedAddr {n : Byte} (h₁ : n ≠ 0x44) (h₂ : n ≠ 0xFF) : Writable (pagedAddr n) := by
  have ha := pagedAddr_toNat n
  have hlt := n.isLt
  have h₁' : n.toNat ≠ 0x44 := fun h => h₁ (BitVec.eq_of_toNat_eq h)
  have h₂' : n.toNat ≠ 0xFF := fun h => h₂ (BitVec.eq_of_toNat_eq h)
  omega

/-- An instruction that is one store of A into the page, by the offset. -/
theorem exec_store_page {i : Instr} {s : Running} {n : Byte}
    (hi : formOperation i.form s = memWrite s (pagedAddr n) s.a) :
    (n ≠ 0x44 → n ≠ 0xFF → ∃ t, exec i (.running s) = .next (.running t) ∧
      SameCore s t ∧ StoredAt (pagedAddr n) s.a s t) ∧
    (n = 0x44 → exec i (.running s) = .fault (.busError .write 0xFF44)) ∧
    (n = 0xFF → exec i (.running s) = .fault (.busError .write 0xFFFF)) := by
  obtain ⟨hok, hfault⟩ := exec_store hi
  refine ⟨fun h₁ h₂ => hok (writable_pagedAddr h₁ h₂), ?ly, ?last⟩
  case ly => rintro rfl; exact hfault (by decide)
  case last => rintro rfl; exact hfault (by decide)

/-- A store of A through HL that completes then moves HL to `next`, in the state the store left. -/
theorem exec_storeHlThen {i : Instr} {s : Running} {next : Word}
    (hi : formOperation i.form s = storeHlThen next s.a s) (h : Writable (s.get16 .hl)) :
    ∃ t₀, SameCore s t₀ ∧ StoredAt (s.get16 .hl) s.a s t₀ ∧
      exec i (.running s) = .next (.running { t₀ with h := hiByte next, l := loByte next }) := by
  obtain ⟨t₀, ht, hcore, hstored⟩ := memWrite_stores s s.a h
  refine ⟨t₀, hcore, hstored, exec_next.2 ⟨_, rfl, ?_⟩⟩
  simp only [hi, storeHlThen, ht, Running.set16]

/-- A store of A through HL that the bus refuses is the instruction's fault, with HL not moved. -/
theorem exec_storeHlThen_fault {i : Instr} {s : Running} {next : Word}
    (hi : formOperation i.form s = storeHlThen next s.a s) (h : ¬ Writable (s.get16 .hl)) :
    exec i (.running s) = .fault (.busError .write (s.get16 .hl)) := by
  refine exec_fault.2 ?_
  simp only [hi, storeHlThen, memWrite_of_not_writable h]

/-- `LD (HL+),A` is a store of A through HL, which then is one more (R121). -/
theorem formOperation_ldIndHlIncA (s : Running) :
    formOperation .ldIndHlIncA s = storeHlThen (s.get16 .hl + 1) s.a s :=
  congrArg (storeHlThen (s.get16 .hl + 1) · s) (loByte_zext16 s.a)

/-- `LD (HL-),A` is a store of A through HL, which then is one less (R122). -/
theorem formOperation_ldIndHlDecA (s : Running) :
    formOperation .ldIndHlDecA s = storeHlThen (s.get16 .hl - 1) s.a s :=
  congrArg (storeHlThen (s.get16 .hl - 1) · s) (loByte_zext16 s.a)

/-! ### The statements -/

/-- Settles O30: the fetch moves pc past the one byte, and the meaning changes nothing. -/
theorem nopOnlyAdvancesPc : Obligations.NopOnlyAdvancesPc := by
  unfold Obligations.NopOnlyAdvancesPc
  have hexec (s : Running) : exec .nop (.running s) = .next (.running s) := rfl
  refine ⟨rfl, hexec, fun s h => ?_⟩
  rw [step_of_fetchDecode (fetchDecode_op h rfl), hexec]

/-- Settles O31: the fields of the byte are the two registers, and the Load of any two of them is one operation. -/
theorem loadRegisterFromRegister : Obligations.LoadRegisterFromRegister := by
  unfold Obligations.LoadRegisterFromRegister
  refine ⟨fun dst src => ?bytes, by decide, fun dst src s => ?meaning⟩
  case bytes =>
    rw [encode_toInstr]
    cases dst <;> cases src <;> rfl
  case meaning =>
    have hload : load (.reg8 dst) (.reg8 src) s = .ok (s.set8 dst (s.get8 src)) := load_reg8_of_byte dst rfl
    rw [exec_form, formOperation, hload, finish]

/-- Settles O32: the byte's field is the register, and the operand byte is fetched before anything is written. -/
theorem loadRegisterFromImmediate : Obligations.LoadRegisterFromImmediate := by
  unfold Obligations.LoadRegisterFromImmediate
  refine ⟨fun r n => ?bytes, by decide, fun r n s => ?meaning, fun r => ?fetch⟩
  case bytes =>
    rw [encode_toInstr]
    cases r <;> rfl
  case meaning =>
    have hload : load (.reg8 r) (.imm8 n) s = .ok (s.set8 r n) := load_reg8_of_byte r rfl
    rw [exec_form, formOperation, hload, finish]
  case fetch =>
    obtain ⟨mk, he⟩ := primary_ldRegImm r
    exact operandFetchFaults_d8 he

/-- Settles O33: the three instructions are one Load from a pair's address, by what answers there. -/
theorem loadRegisterFromMemory : Obligations.LoadRegisterFromMemory := by
  unfold Obligations.LoadRegisterFromMemory
  refine ⟨fun r => ?bytes, rfl, rfl, fun r => exec_load_indirect ?hl, exec_load_indirect rfl, exec_load_indirect rfl⟩
  case bytes =>
    rw [encode_toInstr]
    cases r <;> rfl
  case hl => rw [form_toInstr, formOperation]

/-- Settles O34: a pair is written as its two halves (R14), and both operand bytes are fetched before that. -/
theorem loadPairFromImmediate : Obligations.LoadPairFromImmediate := by
  unfold Obligations.LoadPairFromImmediate
  exact ⟨fun n => ⟨rfl, rfl, rfl, rfl⟩, fun n s => ⟨rfl, rfl, rfl, rfl⟩, operandFetchFaults_d16 rfl,
    operandFetchFaults_d16 rfl, operandFetchFaults_d16 rfl, operandFetchFaults_d16 rfl⟩

/-- Settles O35: the Load writes SP alone. -/
theorem loadSpFromHl : Obligations.LoadSpFromHl := by
  unfold Obligations.LoadSpFromHl
  exact ⟨rfl, fun s => rfl⟩

/-- Settles O36: both instructions are one store of A into the page, at the offset each names. -/
theorem storeToThePage : Obligations.StoreToThePage := by
  unfold Obligations.StoreToThePage
  exact ⟨fun n => rfl, rfl, operandFetchFaults_d8 rfl, pagedAddr_toNat,
    fun n s => exec_store_page (memWrite_loByte_a s (pagedAddr n)),
    fun s => exec_store_page (memWrite_loByte_a s (pagedAddr s.c))⟩

/-- Settles O37: the store comes first, at the old HL, and HL moves only when the bus answered it. -/
theorem storeThroughHlAndMoveIt : Obligations.StoreThroughHlAndMoveIt := by
  unfold Obligations.StoreThroughHlAndMoveIt
  exact ⟨rfl, rfl,
    fun s h => ⟨exec_storeHlThen (formOperation_ldIndHlIncA s) h, exec_storeHlThen (formOperation_ldIndHlDecA s) h⟩,
    fun s h => ⟨exec_storeHlThen_fault (formOperation_ldIndHlIncA s) h,
      exec_storeHlThen_fault (formOperation_ldIndHlDecA s) h⟩⟩

/-- Settles O38: the instruction is one store of A, at its operand. -/
theorem storeToAnAbsoluteAddress : Obligations.StoreToAnAbsoluteAddress := by
  unfold Obligations.StoreToAnAbsoluteAddress
  exact ⟨fun n => rfl, operandFetchFaults_d16 rfl, fun n s => exec_store (memWrite_loByte_a s n)⟩

end Sys2Proof.Machine
end

section
/-! SUPPORT. Arithmetic: the nibbles, the rotate's ring of nine bits, the flags of each operation as the spec words them,
and the proofs of the statements about increment, decrement, XOR A, compare and the rotates. -/

namespace Sys2Proof.Machine

/-! ### The rotate's ring (R151) -/

/-- One turn of the ring that a byte and CARRY form (R151). -/
def ringTurn (x : Byte × Bool) : Byte × Bool := rotL x.1 x.2

/-- The ring has nine bits, so nine turns restore it (R152). -/
theorem ringTurn_nine (x : Byte × Bool) : Nat.repeat ringTurn 9 x = x := by
  obtain ⟨v, cin⟩ := x
  revert v cin
  decide

/-- The result of a turn is the byte shifted left by one with the old CARRY shifted in. -/
theorem rotL_fst (v : Byte) (cin : Bool) : (rotL v cin).1 = v.shiftConcat cin := by
  apply BitVec.eq_of_toNat_eq
  have htwo : (2 : Byte).toNat = 2 := rfl
  rw [BitVec.toNat_shiftConcat, rotL, BitVec.toNat_add, BitVec.toNat_mul, htwo, BitVec.toNat_ofNat, Nat.shiftLeft_eq]
  omega

theorem rotL_bit_zero (v : Byte) (cin : Bool) : (rotL v cin).1.getLsbD 0 = cin := by
  rw [rotL_fst, BitVec.getLsbD_shiftConcat]
  rfl

theorem rotL_bit_succ (v : Byte) (cin : Bool) {i : Nat} (h : i < 7) :
    (rotL v cin).1.getLsbD (i + 1) = v.getLsbD i := by
  have hi : i + 1 < 8 := by omega
  rw [rotL_fst, BitVec.getLsbD_shiftConcat, decide_eq_true hi, Bool.true_and, if_neg (Nat.succ_ne_zero i),
    Nat.add_sub_cancel]

/-- `RLA` writes A and F, by one turn of the ring of A and CARRY (R152). -/
theorem exec_rla (s : Running) :
    exec .rla (.running s) = .next (.running ((s.set8 .a (ringTurn (s.a, s.flags.c)).1).setFlags
      (rlaFlags s.cfg.rlaZero s.flags.z (ringTurn (s.a, s.flags.c)).2))) :=
  exec_form .rla s

/-- `n` times `RLA` from `o`, where each completes. -/
def rlaRun (n : Nat) (o : Option State) : Option State :=
  Nat.repeat (fun o : Option State => o.bind fun u => next? (exec .rla u)) n o

theorem rlaRun_succ {n : Nat} {o : Option State} {t : Running} (h : rlaRun n o = some (.running t)) :
    rlaRun (n + 1) o = next? (exec .rla (.running t)) := by
  have hstep : rlaRun (n + 1) o = (rlaRun n o).bind fun u => next? (exec .rla u) := rfl
  rw [hstep, h, Option.bind_some]

/-- `n` times `RLA` turns the ring of A and CARRY `n` times, and writes nothing but A and F. -/
theorem rlaRun_turns (n : Nat) (s : Running) :
    ∃ t : Running, rlaRun n (some (.running s)) = some (.running t) ∧ t = { s with a := t.a, f := t.f } ∧
      (t.a, t.flags.c) = Nat.repeat ringTurn n (s.a, s.flags.c) := by
  induction n with
  | zero => exact ⟨s, rfl, rfl, rfl⟩
  | succ n ih =>
    obtain ⟨t, hrun, hframe, hring⟩ := ih
    refine ⟨_, by rw [rlaRun_succ hrun, exec_rla, next?], ?frame, ?ring⟩
    case frame =>
      rw [hframe]
      rfl
    case ring =>
      rw [Running.flags_setFlags]
      exact congrArg ringTurn hring

/-- Settles O46: nine turns restore the ring, and nothing but A and F is ever written. -/
theorem nineAccumulatorRotatesRestore : Obligations.NineAccumulatorRotatesRestore := by
  unfold Obligations.NineAccumulatorRotatesRestore
  intro s
  obtain ⟨t, hrun, hframe, hring⟩ := rlaRun_turns 9 s
  obtain ⟨ha, hc⟩ := Prod.mk.inj (hring.trans (ringTurn_nine _))
  exact ⟨t, hrun, by rwa [ha] at hframe, hc⟩

/-- Settles O45: A is the byte of the turned ring, and F names RLA_ZERO's flag and the bit rotated out. -/
theorem rotateAccumulator : Obligations.RotateAccumulator := by
  unfold Obligations.RotateAccumulator
  refine ⟨rfl, fun s => ⟨(rotL s.a s.flags.c).1, fun i hi => rotL_bit_succ _ _ hi, rotL_bit_zero _ _, ?meaning⟩⟩
  case meaning =>
    rw [exec_rla]
    rfl

/-- Settles O47: the same turn of the ring for each register, with ZERO from the result. -/
theorem rotateRegister : Obligations.RotateRegister := by
  unfold Obligations.RotateRegister
  refine ⟨fun r => ?bytes, rfl, fun r s =>
    ⟨(rotL (s.get8 r) s.flags.c).1, fun i hi => rotL_bit_succ _ _ hi, rotL_bit_zero _ _, ?meaning⟩⟩
  case bytes =>
    rw [encode_cb]
    cases r <;> rfl
  case meaning => exact exec_form (.cb (.rl r)) s

/-! ### The flags by nibble and byte (R142, R143, R147) -/

theorem lowNibble_toNat (v : Byte) : (v &&& 0x0F).toNat = v.toNat % 16 := by
  rw [BitVec.toNat_and]
  exact Nat.and_two_pow_sub_one_eq_mod v.toNat 4

theorem lowNibble_eq_iff {v n : Byte} : v &&& 0x0F = n ↔ v.toNat % 16 = n.toNat := by
  rw [← BitVec.toNat_inj, lowNibble_toNat]

/-- HALF_CARRY of `INC r` is the carry out of a low nibble of ones (R142, decision D26). -/
theorem incFlags_eq (old : Byte) (c : Bool) :
    incFlags old c =
      { z := decide (old + 1 = 0), n := false, h := decide (old &&& 0x0F = 0x0F), c := c } := by
  simp only [incFlags, lowNibble_eq_iff, Bool.beq_eq_decide_eq]
  rfl

/-- HALF_CARRY of `DEC r` is the borrow into a low nibble of zeros (R143, decision D26). -/
theorem decFlags_eq (old : Byte) (c : Bool) :
    decFlags old c =
      { z := decide (old - 1 = 0), n := true, h := decide (old &&& 0x0F = 0x00), c := c } := by
  simp only [decFlags, lowNibble_eq_iff, Bool.beq_eq_decide_eq]
  rfl

/-- The flags of a compare, whose carry-in is 0: equality, and the unsigned borrows of nibble and byte (R147). -/
theorem subFlags_false (a v : Byte) :
    subFlags a v false =
      { z := decide (a = v), n := true, h := decide ((a &&& 0x0F).toNat < (v &&& 0x0F).toNat),
        c := decide (a.toNat < v.toNat) } := by
  have hz : a - v = 0 ↔ a = v := by rw [BitVec.sub_eq_iff_eq_add, BitVec.ofNat_eq_ofNat, BitVec.zero_add]
  simp only [subFlags, lowNibble_toNat, Bool.beq_eq_decide_eq, Bool.toNat_false, BitVec.sub_zero, hz, Nat.add_zero]

/-! ### Compare (R147 to R150) -/

/-- A compare with a source that is a byte writes the flags of A minus that byte. -/
theorem compareAcc_of_byte {s : Running} {src : Src} {v : Byte} (h : resolve src s = .ok (zext16 v)) :
    compareAcc src s = .ok (s.setFlags (subFlags s.a v false)) := by
  simp only [compareAcc, h, loByte_zext16]

/-- The fault of a source's read is the fault of the compare. -/
theorem compareAcc_of_fault {s : Running} {src : Src} {f : Fault} (h : resolve src s = .error f) :
    compareAcc src s = .error f := by
  simp only [compareAcc, h]

theorem resolve_indirect_of_read {s : Running} {p : Reg16} {v : Byte} (h : memRead s (s.get16 p) = .ok v) :
    resolve (.indirect p) s = .ok (zext16 v) := by
  simp only [resolve, h]

theorem resolve_indirect_of_fault {s : Running} {p : Reg16} {f : Fault} (h : memRead s (s.get16 p) = .error f) :
    resolve (.indirect p) s = .error f := by
  simp only [resolve, h]

/-- An instruction that compares A with a byte writes the four flags and nothing else. -/
theorem exec_compare {i : Instr} {s : Running} {src : Src} {v : Byte} (hi : formOperation i.form = compareAcc src)
    (h : resolve src s = .ok (zext16 v)) :
    exec i (.running s) = .next (.running (s.setFlags
      { z := decide (s.a = v), n := true, h := decide ((s.a &&& 0x0F).toNat < (v &&& 0x0F).toNat),
        c := decide (s.a.toNat < v.toNat) })) := by
  rw [exec_eq, hi, run_running, compareAcc_of_byte h, subFlags_false, finish]

/-- An instruction that compares A with a byte the bus does not answer ends in the fault of the read. -/
theorem exec_compare_fault {i : Instr} {s : Running} {p : Reg16} {f : Fault}
    (hi : formOperation i.form = compareAcc (.indirect p)) (h : memRead s (s.get16 p) = .error f) :
    exec i (.running s) = .fault f := by
  rw [exec_eq, hi, run_running, compareAcc_of_fault (resolve_indirect_of_fault h), finish]

/-- Settles O44: the nine instructions are one compare, by what their source resolves to. -/
theorem compareWritesFlagsOnly : Obligations.CompareWritesFlagsOnly := by
  unfold Obligations.CompareWritesFlagsOnly
  refine ⟨fun r => ?bytes, rfl, fun n => rfl, operandFetchFaults_d8 rfl,
    fun r s => exec_compare (src := .reg8 r) ?register rfl, fun n s => exec_compare (src := .imm8 n) rfl rfl,
    fun s => ⟨fun h => ?readable, fun h => exec_compare_fault rfl (memRead_unmapped h),
      fun h => exec_compare_fault rfl (memRead_pastBlob h)⟩⟩
  case bytes =>
    rw [encode_toInstr]
    cases r <;> rfl
  case register => rw [form_toInstr, formOperation]
  case readable =>
    obtain ⟨v, hv⟩ := memRead_of_readable h
    exact ⟨v, hv, exec_compare rfl (resolve_indirect_of_read hv)⟩

/-! ### Increment, decrement and XOR A -/

/-- Settles O39: the byte's field is the register, and the increment of any register is one operation. -/
theorem incrementRegister : Obligations.IncrementRegister := by
  unfold Obligations.IncrementRegister
  refine ⟨fun r => ?bytes, rfl, fun r s => ?meaning⟩
  case bytes =>
    rw [encode_toInstr]
    cases r <;> rfl
  case meaning => rw [exec_form, formOperation, incReg, incFlags_eq, finish]

/-- Settles O40: the byte's field is the register, and the decrement of any register is one operation. -/
theorem decrementRegister : Obligations.DecrementRegister := by
  unfold Obligations.DecrementRegister
  refine ⟨fun r => ?bytes, rfl, fun r s => ?meaning⟩
  case bytes =>
    rw [encode_toInstr]
    cases r <;> rfl
  case meaning => rw [exec_form, formOperation, decReg, decFlags_eq, finish]

/-- Settles O41: each pair's increment is one write of the pair, and of no flag. -/
theorem incrementPair : Obligations.IncrementPair := by
  unfold Obligations.IncrementPair
  exact ⟨rfl, rfl, rfl, rfl, fun s =>
    ⟨exec_form (.incPair .bc) s, exec_form (.incPair .de) s, exec_form (.incPair .hl) s, exec_form (.incPair .sp) s⟩⟩

/-- Settles O42: each pair's decrement is one write of the pair, and of no flag. -/
theorem decrementPair : Obligations.DecrementPair := by
  unfold Obligations.DecrementPair
  exact ⟨rfl, rfl, rfl, rfl, fun s =>
    ⟨exec_form (.decPair .bc) s, exec_form (.decPair .de) s, exec_form (.decPair .hl) s, exec_form (.decPair .sp) s⟩⟩

/-- Settles O43: a byte exclusive-or itself is zero, and the byte of XOR's flags is 0x80. -/
theorem xorAClearsA : Obligations.XorAClearsA := by
  unfold Obligations.XorAClearsA
  refine ⟨rfl, by decide, fun s => ?meaning⟩
  case meaning =>
    have hexec : exec .xorA (.running s) = .next (.running ((s.set8 .a (s.a ^^^ s.a)).setFlags xorAFlags)) :=
      exec_form .xorA s
    rw [hexec, BitVec.xor_self]
    rfl

end Sys2Proof.Machine
end

section
/-! SUPPORT. The CB prefix: every inner instruction completes with pc unchanged, and the proofs of the statements about
`PREFIX CB` and `BIT b,r`. -/

namespace Sys2Proof.Machine

/-- Neither a rotate nor a bit test can fault, and neither moves pc (R171, R172). -/
theorem cbOperation_completes (o : CbOp) (s : Running) : ∃ t, cbOperation o s = .ok t ∧ t.pc = s.pc := by
  cases o with
  | rl r => exact ⟨_, rfl, (Running.setFlags_pc _ _).trans (Running.set8_pc s r _)⟩
  | bit b r => exact ⟨_, rfl, Running.setFlags_pc s _⟩

/-- Settles O7: the prefix hands over to the inner row, which completes; its fetch and its table give the two faults. -/
theorem prefixRunsTheInnerInstruction : Obligations.PrefixRunsTheInnerInstruction := by
  unfold Obligations.PrefixRunsTheInnerInstruction
  refine ⟨rfl, fun s op2 i h hi => ?admitted, fun s op2 h ha => execPrefixCb_unadmitted h (decodeCbOp_eq_none ha),
    fun s f h => execPrefixCb_fault h, fun s h₀ h₁ => unadmittedCbByteRaisesDecodeError s 0xCB h₀ h₁ rfl⟩
  case admitted =>
    obtain ⟨o, ho, rfl⟩ := Option.map_eq_some_iff.1 hi
    obtain ⟨t, ht, hpc⟩ := cbOperation_completes o { s with pc := s.pc + 1 }
    have hinner : exec o.toInstr (.running { s with pc := s.pc + 1 }) = .next (.running t) :=
      (exec_form (.cb o) _).trans (congrArg finish ht)
    have hprefix : exec .prefixCb (.running s) = exec o.toInstr (.running { s with pc := s.pc + 1 }) :=
      (execPrefixCb_of_op h ho).trans (execCbOp_eq_exec o _)
    exact ⟨t, hprefix.trans hinner, hinner, hpc⟩

/-- Settles O48: bit number and register are the fields of the second byte, and the bit test of any register is one
operation, which writes F alone. -/
theorem testBit : Obligations.TestBit := by
  unfold Obligations.TestBit
  refine ⟨fun b r => ?bytes, by decide, fun b r s => exec_form (.cb (.bit b r)) s⟩
  case bytes =>
    have table : ∀ b : Fin 8, (CbOp.bit b r).encode = 0x40 + 8 * BitVec.ofNat 8 b.val + regNumber r := by
      cases r <;> decide
    rw [encode_cb, table b]

end Sys2Proof.Machine
end

section
/-! SUPPORT. The stack: what a push stores and a pop answers, that a pop undoes a push, and the proofs of the statements
about CALL, RET, PUSH and POP. -/

namespace Sys2Proof.Machine

/-! ### Pushes (R193) -/

/-- A push of one byte moves SP down by one and stores the byte there. -/
theorem push8_stores (s : Running) (v : Byte) (h : Writable (s.sp - 1)) :
    ∃ t, push8 v s = .ok t ∧ SameCore { s with sp := s.sp - 1 } t ∧ StoredAt (s.sp - 1) v s t := by
  obtain ⟨t, ht, hcore, hstored⟩ := memWrite_stores { s with sp := s.sp - 1 } v h
  exact ⟨t, ht, hcore, hstored.byte, fun x hx => (hstored.other x hx).trans (memRead_sp ..)⟩

/-- A push of one byte to an address that is not writable is the fault of its store. -/
theorem push8_fault {s : Running} (v : Byte) (h : ¬ Writable (s.sp - 1)) :
    push8 v s = .error (.busError .write (s.sp - 1)) :=
  memWrite_of_not_writable h

/-- The slot of the second push. -/
theorem sp_sub_one_sub_one (a : Word) : a - 1 - 1 = a - 2 := by bv_omega

/-- A push of a word to two writable slots stores its high byte in the upper one and its low byte in the lower one. -/
theorem push16_pushed (s : Running) (w : Word) (h₁ : Writable (s.sp - 1)) (h₂ : Writable (s.sp - 2)) :
    ∃ t, push16 w s = .ok t ∧ Pushed w s t ∧ t.pc = s.pc := by
  obtain ⟨m, hm, hcore, hhigh⟩ := push8_stores s (hiByte w) h₁
  have hsp : m.sp - 1 = s.sp - 2 := by rw [hcore.sp, sp_sub_one_sub_one]
  obtain ⟨t, ht, hcore', hlow⟩ := push8_stores m (loByte w) (hsp ▸ h₂)
  rw [hsp] at hcore' hlow
  have hslots : s.sp - 1 ≠ s.sp - 2 := by bv_omega
  refine ⟨t, by simp only [push16, hm, ht], ?pushed, hcore'.pc.trans hcore.pc⟩
  case pushed =>
    exact
      { sp := hcore'.sp
        high := (hlow.other _ hslots).trans hhigh.byte
        low := hlow.byte
        other x hx hx' := (hlow.other x hx').trans (hhigh.other x hx)
        regs r := by rw [hcore'.regs, Running.get8_sp, hcore.regs, Running.get8_sp]
        f := hcore'.f.trans hcore.f
        cfg := hcore'.cfg.trans hcore.cfg
        scrollX := hcore'.scrollX.trans hcore.scrollX
        ly := hcore'.ly.trans hcore.ly }

/-- A push of a word whose upper slot is not writable faults there. -/
theorem push16_first_fault {s : Running} (w : Word) (h : ¬ Writable (s.sp - 1)) :
    push16 w s = .error (.busError .write (s.sp - 1)) := by
  simp only [push16, push8_fault (hiByte w) h]

/-- A push of a word whose lower slot alone is not writable faults there. -/
theorem push16_second_fault {s : Running} (w : Word) (h₁ : Writable (s.sp - 1)) (h₂ : ¬ Writable (s.sp - 2)) :
    push16 w s = .error (.busError .write (s.sp - 2)) := by
  obtain ⟨m, hm, hcore, -⟩ := push8_stores s (hiByte w) h₁
  have hsp : m.sp - 1 = s.sp - 2 := by rw [hcore.sp, sp_sub_one_sub_one]
  simp only [push16, hm, push8_fault (loByte w) (hsp ▸ h₂), hsp]

/-- What was pushed does not depend on pc. -/
theorem Pushed.with_pc {w : Word} {s t : Running} (h : Pushed w s t) (n : Word) : Pushed w s { t with pc := n } :=
  { h with
    high := (memRead_pc ..).trans h.high
    low := (memRead_pc ..).trans h.low
    other x hx hx' := (memRead_pc ..).trans (h.other x hx hx')
    regs r := (Running.get8_pc ..).trans (h.regs r) }

/-! ### Pops (R193) -/

theorem pop8_of_read {s : Running} {b : Byte} (h : memRead s s.sp = .ok b) :
    pop8 s = .ok (b, { s with sp := s.sp + 1 }) := by
  simp only [pop8, h]

theorem pop8_of_fault {s : Running} {f : Fault} (h : memRead s s.sp = .error f) : pop8 s = .error f := by
  simp only [pop8, h]

theorem pop16_of_reads {s : Running} {lo hi : Byte} (h₁ : memRead s s.sp = .ok lo)
    (h₂ : memRead s (s.sp + 1) = .ok hi) : pop16 s = .ok (wordOf hi lo, { s with sp := s.sp + 2 }) := by
  have h₂' : memRead { s with sp := s.sp + 1 } (s.sp + 1) = .ok hi := (memRead_sp ..).trans h₂
  have hsp : s.sp + 1 + 1 = s.sp + 2 := by bv_omega
  simp only [pop16, pop8_of_read h₁, pop8_of_read h₂', hsp]

theorem pop16_of_fault {s : Running} {f : Fault} (h : memRead s s.sp = .error f) : pop16 s = .error f := by
  simp only [pop16, pop8_of_fault h]

theorem pop16_of_second_fault {s : Running} {lo : Byte} {f : Fault} (h₁ : memRead s s.sp = .ok lo)
    (h₂ : memRead s (s.sp + 1) = .error f) : pop16 s = .error f := by
  have h₂' : memRead { s with sp := s.sp + 1 } (s.sp + 1) = .error f := (memRead_sp ..).trans h₂
  simp only [pop16, pop8_of_read h₁, pop8_of_fault h₂']

/-- A pop answers the word that was pushed, and SP is back (R54, R193). -/
theorem Pushed.pop16 {w : Word} {s t : Running} (h : Pushed w s t) :
    Machine.pop16 t = .ok (w, { t with sp := s.sp }) := by
  have hup : t.sp + 1 = s.sp - 1 := by rw [h.sp]; bv_omega
  have hback : t.sp + 2 = s.sp := by rw [h.sp]; bv_omega
  have hlow : memRead t t.sp = .ok (loByte w) := by rw [h.sp, h.low]
  have hhigh : memRead t (t.sp + 1) = .ok (hiByte w) := by rw [hup, h.high]
  rw [pop16_of_reads hlow hhigh, wordOf_hiByte_loByte, hback]

/-! ### PUSH and POP (R196 to R198) -/

theorem exec_push (q : PairAf) (s : Running) :
    exec (Form.push q).toInstr (.running s) = finish (push16 (s.get16 (pairAfView q)) s) :=
  exec_form (.push q) s

/-- `PUSH` of any pair to two writable slots. -/
theorem exec_push_pushed (q : PairAf) (s : Running) (h₁ : Writable (s.sp - 1)) (h₂ : Writable (s.sp - 2)) :
    ∃ t, exec (Form.push q).toInstr (.running s) = .next (.running t) ∧ Pushed (s.get16 (pairAfView q)) s t ∧
      t.pc = s.pc := by
  obtain ⟨t, ht, hpushed, hpc⟩ := push16_pushed s (s.get16 (pairAfView q)) h₁ h₂
  exact ⟨t, by rw [exec_push, ht, finish], hpushed, hpc⟩

/-- The four instructions `PUSH rr` are the form's four pairs. -/
theorem exists_push_of_mem {i : Instr} (h : i ∈ [Instr.pushBc, .pushDe, .pushHl, .pushAf]) :
    ∃ q, i = (Form.push q).toInstr := by
  simp only [List.mem_cons, List.not_mem_nil, or_false] at h
  obtain rfl | rfl | rfl | rfl := h
  · exact ⟨.bc, rfl⟩
  · exact ⟨.de, rfl⟩
  · exact ⟨.hl, rfl⟩
  · exact ⟨.af, rfl⟩

/-- Settles O53: `PUSH` of any pair is one push of its word, by which of the two slots are writable. -/
theorem pushStoresThePair : Obligations.PushStoresThePair := by
  unfold Obligations.PushStoresThePair
  refine ⟨rfl, rfl, rfl, rfl, fun s => ⟨fun h₁ h₂ => ?pushed, fun h i hi => ?first, fun h₁ h₂ i hi => ?second⟩⟩
  case pushed =>
    exact ⟨exec_push_pushed .bc s h₁ h₂, exec_push_pushed .de s h₁ h₂, exec_push_pushed .hl s h₁ h₂,
      exec_push_pushed .af s h₁ h₂⟩
  case first =>
    obtain ⟨q, rfl⟩ := exists_push_of_mem hi
    rw [exec_push, push16_first_fault _ h, finish]
  case second =>
    obtain ⟨q, rfl⟩ := exists_push_of_mem hi
    rw [exec_push, push16_second_fault _ h₁ h₂, finish]

theorem exec_pop_of_pop16 (q : PairAf) {s t : Running} {w : Word} (h : pop16 s = .ok (w, t)) :
    exec (Form.pop q).toInstr (.running s) = .next (.running (t.set16 (pairAfView q) w)) := by
  simp only [exec_form, formOperation, pop, h, finish]

theorem exec_pop_of_fault (q : PairAf) {s : Running} {f : Fault} (h : pop16 s = .error f) :
    exec (Form.pop q).toInstr (.running s) = .fault f := by
  simp only [exec_form, formOperation, pop, h, finish]

/-- `POP` into any pair, where the bus answers both bytes. -/
theorem exec_pop_of_reads (q : PairAf) {s : Running} {lo hi : Byte} (h₁ : memRead s s.sp = .ok lo)
    (h₂ : memRead s (s.sp + 1) = .ok hi) :
    exec (Form.pop q).toInstr (.running s) =
      .next (.running (({ s with sp := s.sp + 2 } : Running).set16 (pairAfView q) (wordOf hi lo))) :=
  exec_pop_of_pop16 q (pop16_of_reads h₁ h₂)

/-- `POP` into any pair, where the bus does not answer one of the bytes. -/
theorem exec_pop_faults (q : PairAf) (s : Running) (f : Fault) :
    (memRead s s.sp = .error f → exec (Form.pop q).toInstr (.running s) = .fault f) ∧
    ∀ lo, memRead s s.sp = .ok lo → memRead s (s.sp + 1) = .error f →
      exec (Form.pop q).toInstr (.running s) = .fault f :=
  ⟨fun h => exec_pop_of_fault q (pop16_of_fault h), fun _ h₁ h₂ => exec_pop_of_fault q (pop16_of_second_fault h₁ h₂)⟩

/-- The three instructions `POP rr` of R197 are the form's pairs but AF. -/
theorem exists_pop_of_mem {i : Instr} (h : i ∈ [Instr.popBc, .popDe, .popHl]) : ∃ q, i = (Form.pop q).toInstr := by
  simp only [List.mem_cons, List.not_mem_nil, or_false] at h
  obtain rfl | rfl | rfl := h
  · exact ⟨.bc, rfl⟩
  · exact ⟨.de, rfl⟩
  · exact ⟨.hl, rfl⟩

/-- Settles O54: `POP` into any pair is one pop, whose word is then written as the pair's two halves. -/
theorem popLoadsThePair : Obligations.PopLoadsThePair := by
  unfold Obligations.PopLoadsThePair
  refine ⟨rfl, rfl, rfl, fun s lo hi h₁ h₂ => ?loaded, fun s f i hi => ?fault⟩
  case loaded =>
    have hbc := exec_pop_of_reads .bc h₁ h₂
    have hde := exec_pop_of_reads .de h₁ h₂
    have hhl := exec_pop_of_reads .hl h₁ h₂
    simp only [pairAfView, Running.set16, hiByte_wordOf, loByte_wordOf] at hbc hde hhl
    exact ⟨hbc, hde, hhl⟩
  case fault =>
    obtain ⟨q, rfl⟩ := exists_pop_of_mem hi
    exact exec_pop_faults q s f

/-- Settles O55: the same pop, whose low byte is masked as every write of F is. -/
theorem popAfMasksF : Obligations.PopAfMasksF := by
  unfold Obligations.PopAfMasksF
  refine ⟨rfl, fun s lo hi h₁ h₂ => ?loaded, exec_pop_faults .af⟩
  case loaded =>
    have haf := exec_pop_of_reads .af h₁ h₂
    simp only [pairAfView, Running.set16, Running.setF, hiByte_wordOf, loByte_wordOf] at haf
    exact haf

theorem pairAfView_ne_sp (q : PairAf) : pairAfView q ≠ .sp := by
  cases q <;> decide

theorem pairAfView_eq_af {q : PairAf} : pairAfView q = .af ↔ q = .af := by
  cases q <;> decide

/-- A write of AF masks the low nibble of F (R14, R16). -/
theorem Running.get16_set16_af (s : Running) (v : Word) : (s.set16 .af v).get16 .af = v &&& 0xFFF0 :=
  wordOf_masked v

/-- Settles O57: the pop answers the word that was pushed, and a write of the second pair reads back. -/
theorem popUndoesPush : Obligations.PopUndoesPush := by
  unfold Obligations.PopUndoesPush
  intro s q₁ q₂ h₁ h₂
  obtain ⟨t, ht, hpushed, -⟩ := exec_push_pushed q₁ s h₁ h₂
  refine ⟨t, _, ht, exec_pop_of_pop16 q₂ hpushed.pop16, ?sp, fun hq => ?same, fun hq => ?masked⟩
  case sp => exact Running.set16_sp _ _ (pairAfView_ne_sp q₂)
  case same => exact Running.get16_set16_same _ _ (mt pairAfView_eq_af.1 hq)
  case masked =>
    subst hq
    exact Running.get16_set16_af _ _

/-! ### CALL and RET (R194, R195) -/

theorem call_of_push16 {n : Word} {s t : Running} (h : push16 s.pc s = .ok t) :
    call n s = .ok { t with pc := n } := by
  simp only [call, h]

theorem exec_call_of_fault (n : Word) {s : Running} {f : Fault} (h : push16 s.pc s = .error f) :
    exec (.callA16 n) (.running s) = .fault f := by
  refine exec_fault.2 ?_
  simp only [Instr.form, formOperation, call, h]

/-- `CALL` with two writable slots pushes pc and goes to the target. -/
theorem exec_call_pushed (n : Word) (s : Running) (h₁ : Writable (s.sp - 1)) (h₂ : Writable (s.sp - 2)) :
    ∃ t, exec (.callA16 n) (.running s) = .next (.running t) ∧ Pushed s.pc s t ∧ t.pc = n := by
  obtain ⟨t, ht, hpushed, -⟩ := push16_pushed s s.pc h₁ h₂
  exact ⟨{ t with pc := n }, exec_next.2 ⟨_, rfl, call_of_push16 ht⟩, hpushed.with_pc n, rfl⟩

/-- Settles O51: the call is one push of pc, by which of the two slots are writable. -/
theorem callPushesTheReturnAddress : Obligations.CallPushesTheReturnAddress := by
  unfold Obligations.CallPushesTheReturnAddress
  exact ⟨fun n => rfl, operandFetchFaults_d16 rfl, fun n s => ⟨exec_call_pushed n s,
    fun h => exec_call_of_fault n (push16_first_fault _ h),
    fun h₁ h₂ => exec_call_of_fault n (push16_second_fault _ h₁ h₂)⟩⟩

theorem exec_ret_of_pop16 {s t : Running} {w : Word} (h : pop16 s = .ok (w, t)) :
    exec .ret (.running s) = .next (.running { t with pc := w }) := by
  refine exec_next.2 ⟨_, rfl, ?_⟩
  simp only [Instr.form, formOperation, ret, h]

theorem exec_ret_of_fault {s : Running} {f : Fault} (h : pop16 s = .error f) :
    exec .ret (.running s) = .fault f := by
  refine exec_fault.2 ?_
  simp only [Instr.form, formOperation, ret, h]

/-- Settles O52: the return is one pop, whose word goes to pc. -/
theorem returnPopsPc : Obligations.ReturnPopsPc := by
  unfold Obligations.ReturnPopsPc
  exact ⟨rfl, fun s lo hi h₁ h₂ => exec_ret_of_pop16 (pop16_of_reads h₁ h₂),
    fun s f h => exec_ret_of_fault (pop16_of_fault h),
    fun s f lo h₁ h₂ => exec_ret_of_fault (pop16_of_second_fault h₁ h₂)⟩

/-- After a push, SP and pc put back restore all state but the two stacked bytes. -/
theorem Pushed.restored {w : Word} {s t : Running} (h : Pushed w s t) :
    SameCore s { t with sp := s.sp, pc := s.pc } where
  regs r := (Running.get8_sp_pc ..).trans (h.regs r)
  f := h.f
  sp := rfl
  pc := rfl
  cfg := h.cfg
  scrollX := h.scrollX
  ly := h.ly

/-- Settles O56: the return pops the pc that the call pushed, and only the call writes memory. -/
theorem returnUndoesCall : Obligations.ReturnUndoesCall := by
  unfold Obligations.ReturnUndoesCall
  intro s n h₁ h₂
  obtain ⟨t, ht, hpushed, -⟩ := exec_call_pushed n s h₁ h₂
  refine ⟨t, _, ht, exec_ret_of_pop16 hpushed.pop16, hpushed.restored, fun a ha ha' => ?bytes⟩
  case bytes =>
    rw [memRead_pc, memRead_sp, hpushed.other a ha ha']

end Sys2Proof.Machine
end

section
/-! SUPPORT. The relative jumps: the displacement as a signed number, and the proofs of the statements about them. -/

namespace Sys2Proof

/-- The sign extension of R6 is the library's, the word of the byte's signed value. -/
theorem sext16_eq_signExtend (v : Byte) : sext16 v = v.signExtend 16 := by
  have hv := v.isLt
  apply BitVec.eq_of_toNat_eq
  rw [BitVec.toNat_signExtend, BitVec.msb_eq_getLsbD_last, sext16, zext16]
  by_cases h : v.getLsbD 7 = true
  · rw [if_pos h, if_pos h, BitVec.toNat_add, BitVec.toNat_setWidth]
    have hhigh : (0xFF00 : Word).toNat = 2 ^ 16 - 2 ^ 8 := rfl
    omega
  · rw [if_neg h, if_neg h, Nat.add_zero]

namespace Machine

/-- A jump adds the signed displacement to pc (R191). -/
theorem jump_eq (e : Byte) (s : Running) : jump e s = .ok { s with pc := s.pc + BitVec.ofInt 16 e.toInt } := by
  rw [jump, sext16_eq_signExtend, BitVec.signExtend]

/-- `JR e8` with pc past the instruction. -/
theorem exec_jr (e : Byte) (s : Running) :
    exec (.jrE8 e) (.running s) = .next (.running { s with pc := s.pc + BitVec.ofInt 16 e.toInt }) :=
  exec_next.2 ⟨_, rfl, jump_eq e s⟩

/-- Settles O49: the fetch moves pc past the two bytes, and the jump adds the displacement to it. -/
theorem jumpRelative : Obligations.JumpRelative := by
  unfold Obligations.JumpRelative
  refine ⟨fun e => rfl, operandFetchFaults_d8 rfl, exec_jr, fun s e h => ?step⟩
  case step => exact (step_of_holds h rfl).trans (exec_jr e _)

/-- `JR cc,e8` jumps where the condition holds and otherwise changes nothing (R192). -/
theorem exec_jrCond (cc : Cond) (e : Byte) (s : Running) :
    exec (Form.jrCond cc e).toInstr (.running s) =
      .next (.running (if condHolds cc s.flags then { s with pc := s.pc + BitVec.ofInt 16 e.toInt } else s)) := by
  rw [exec_form, formOperation, jumpIf, jump_eq, ← apply_ite Except.ok, finish]

/-- Settles O50: the four instructions are one conditional jump; NZ and NC hold where their flag is clear (R190). -/
theorem jumpRelativeOnCondition : Obligations.JumpRelativeOnCondition := by
  unfold Obligations.JumpRelativeOnCondition
  refine ⟨fun e => ⟨rfl, rfl, rfl, rfl⟩, operandFetchFaults_d8 rfl, operandFetchFaults_d8 rfl,
    operandFetchFaults_d8 rfl, operandFetchFaults_d8 rfl, fun e s => ?meaning⟩
  case meaning =>
    have hnz := exec_jrCond .nz e s
    have hnc := exec_jrCond .nc e s
    simp only [condHolds, Bool.not_eq_true', ← Bool.not_eq_true, ite_not] at hnz hnc
    exact ⟨hnz, exec_jrCond .z e s, hnc, exec_jrCond .c e s⟩

end Machine

end Sys2Proof
end

section
/-! SUPPORT. Faults: what the fetches, the data accesses and the CB prefix of a step can raise, that a fault is kept,
and the proofs of the statements about them. -/

namespace Sys2Proof.Machine

/-! ### The order of the fetches (R225) -/

/-- An admitted first byte has an entry, which takes as many operand bytes as the spec's lists say. -/
theorem exists_primary_of_admitted {op : Byte} (h : admittedPrimary op = true) :
    ∃ e, primary op = some e ∧ e.operandBytes = operandCount op := by
  rw [← primary_isSome] at h
  obtain ⟨e, he⟩ := Option.isSome_iff_exists.1 h
  exact ⟨e, he, operandBytes_of_primary he⟩

/-- The step of `PREFIX CB` at pc runs it with pc past that one byte. -/
theorem step_prefixCb {s : Running} (h : memRead s s.pc = .ok 0xCB) :
    step (.running s) = execPrefixCb (.running { s with pc := s.pc + 1 }) :=
  step_of_fetchDecode (fetchDecode_op h rfl)

/-- The second byte of a CB pair is fetched as an operand byte is (R93). -/
theorem operandFetchFaults_cb : OperandFetchFaults 0xCB false := by
  intro s f h
  refine ⟨fun h₁ => ?_, nofun⟩
  rw [step_prefixCb h, execPrefixCb_fault (by rw [memRead_pc, h₁])]

/-- Settles O10: the fetches come one after another, by the number of operand bytes the first byte's entry takes. -/
theorem fetchFaultsEndTheStepInOrder : Obligations.FetchFaultsEndTheStepInOrder := by
  unfold Obligations.FetchFaultsEndTheStepInOrder
  refine ⟨fun s f h => ?opcode, fun op ha hn => ?one, fun op ha hn => ?two, operandFetchFaults_cb⟩
  case opcode => rw [step_running, fetchDecode_fault h]
  case one =>
    obtain ⟨e, he, hc⟩ := exists_primary_of_admitted ha
    rw [hn] at hc
    cases e with
    | d8 mk => exact operandFetchFaults_d8 he
    | op i => cases hc
    | d16 mk => cases hc
  case two =>
    obtain ⟨e, he, hc⟩ := exists_primary_of_admitted ha
    rw [hn] at hc
    cases e with
    | d16 mk => exact operandFetchFaults_d16 he
    | op i => cases hc
    | d8 mk => cases hc

/-! ### A fault is kept (R222, log entry 4) -/

@[simp] theorem State.driveLy_faulted (f : Fault) (v : Byte) : (State.faulted f).driveLy v = .faulted f := rfl

@[simp] theorem afterStep_faulted (f : Fault) : afterStep (.faulted f) = .faulted f := rfl

theorem drivenRun_faulted (f : Fault) (vs : List Byte) : drivenRun (.faulted f) vs = .faulted f := by
  induction vs with
  | nil => rfl
  | cons v vs ih => rw [drivenRun_cons, State.driveLy_faulted, afterStep_faulted, ih]

theorem not_safe_faulted (f : Fault) : ¬ Safe (.faulted f) := by
  rintro ⟨t, ht⟩
  cases ht

/-- Every step after the one that raised leaves the fault that one left. -/
theorem repeat_afterStep_of_fault {s : State} {f : Fault} (h : step s = .fault f) (n : Nat) :
    Nat.repeat afterStep (n + 1) s = .faulted f := by
  induction n with
  | zero => exact afterStep_of_fault h
  | succ n ih => rw [Nat.repeat, ih, afterStep_faulted]

/-- Settles O11, by induction on the driver's bytes and on the number of steps. -/
theorem faultIsPermanent : Obligations.FaultIsPermanent := by
  unfold Obligations.FaultIsPermanent
  exact ⟨fun f => ⟨step_faulted f, not_safe_faulted f, drivenRun_faulted f⟩, fun s f => repeat_afterStep_of_fault⟩

/-! ### What the data accesses raise (R221, R225) -/

/-- A fault of the form `x` executed in `s`: one of its loads is not answered, or one of its stores goes to an address
that is not writable. -/
inductive DataFault (x : Form) (s : Running) : Fault → Prop
  | load {a : Word} {f : Fault} (ha : a ∈ loadsFrom x s) (h : memRead s a = .error f) : DataFault x s f
  | store {a : Word} (ha : a ∈ storesTo x s) (h : ¬ Writable a) : DataFault x s (.busError .write a)

/-- A store the form lists faults because its address is not writable (R42). -/
theorem DataFault.of_memWrite {x : Form} {s : Running} {a : Word} {v : Byte} {f : Fault} (ha : a ∈ storesTo x s)
    (h : memWrite s a v = .error f) : DataFault x s f := by
  by_cases hw : Writable a
  · obtain ⟨t, ht⟩ := memWrite_of_writable (s := s) v hw
    rw [ht] at h
    cases h
  · rw [memWrite_of_not_writable hw] at h
    cases h
    exact .store ha hw

/-- A store through HL faults in its write, which comes first. -/
theorem storeHlThen_fault {x : Form} {s : Running} {next : Word} {v : Byte} {f : Fault}
    (ha : s.get16 .hl ∈ storesTo x s) (h : storeHlThen next v s = .error f) : DataFault x s f := by
  unfold storeHlThen at h
  split at h
  · cases h
  · next hw => cases h; exact .of_memWrite ha hw

/-- A source at a pair's address that the form lists faults where the address does not answer. -/
theorem resolve_indirect_fault {x : Form} {s : Running} {p : Reg16} {f : Fault} (ha : s.get16 p ∈ loadsFrom x s)
    (h : resolve (.indirect p) s = .error f) : DataFault x s f := by
  simp only [resolve] at h
  split at h
  · cases h
  · next hr => cases h; exact .load ha hr

/-- A Load of a register from a pair's address faults in its source (R111). -/
theorem load_indirect_fault {x : Form} {s : Running} {r : Reg8} {p : Reg16} {f : Fault}
    (ha : s.get16 p ∈ loadsFrom x s) (h : load (.reg8 r) (.indirect p) s = .error f) : DataFault x s f := by
  unfold load at h
  split at h
  · cases h
  · next hr => cases h; exact resolve_indirect_fault ha hr

/-- A compare with the byte at a pair's address faults in its source (R149). -/
theorem compareAcc_indirect_fault {x : Form} {s : Running} {p : Reg16} {f : Fault}
    (ha : s.get16 p ∈ loadsFrom x s) (h : compareAcc (.indirect p) s = .error f) : DataFault x s f := by
  unfold compareAcc at h
  split at h
  · cases h
  · next hr => cases h; exact resolve_indirect_fault ha hr

/-- A push faults at the first of its two slots that is not writable. -/
theorem push16_fault {x : Form} {s : Running} {w : Word} {f : Fault} (h : push16 w s = .error f)
    (hx : storesTo x s = [s.sp - 1, s.sp - 2]) : DataFault x s f := by
  by_cases h₁ : Writable (s.sp - 1)
  · by_cases h₂ : Writable (s.sp - 2)
    · obtain ⟨t, ht, -⟩ := push16_pushed s w h₁ h₂
      rw [ht] at h
      cases h
    · rw [push16_second_fault w h₁ h₂] at h
      cases h
      exact .store (by simp [hx]) h₂
  · rw [push16_first_fault w h₁] at h
    cases h
    exact .store (by simp [hx]) h₁

/-- A pop faults at the first of its two bytes that is not answered. -/
theorem pop16_fault {x : Form} {s : Running} {f : Fault} (h : pop16 s = .error f)
    (hx : loadsFrom x s = [s.sp, s.sp + 1]) : DataFault x s f := by
  cases h₁ : memRead s s.sp with
  | error g =>
    rw [pop16_of_fault h₁] at h
    cases h
    exact .load (by simp [hx]) h₁
  | ok lo =>
    cases h₂ : memRead s (s.sp + 1) with
    | error g =>
      rw [pop16_of_second_fault h₁ h₂] at h
      cases h
      exact .load (by simp [hx]) h₂
    | ok hi =>
      rw [pop16_of_reads h₁ h₂] at h
      cases h

theorem call_fault {n : Word} {s : Running} {f : Fault} (h : call n s = .error f) : DataFault (.call n) s f := by
  unfold call at h
  split at h
  · cases h
  · next hp => cases h; exact push16_fault hp rfl

theorem ret_fault {s : Running} {f : Fault} (h : ret s = .error f) : DataFault .ret s f := by
  unfold ret at h
  split at h
  · cases h
  · next hp => cases h; exact pop16_fault hp rfl

theorem pop_fault {q : PairAf} {s : Running} {f : Fault} (h : pop (pairAfView q) s = .error f) :
    DataFault (.pop q) s f := by
  unfold pop at h
  split at h
  · cases h
  · next hp => cases h; exact pop16_fault hp rfl

theorem jumpIf_completes (cc : Cond) (e : Byte) (s : Running) : ∃ t, jumpIf cc e s = .ok t := by
  unfold jumpIf
  split
  · exact ⟨_, rfl⟩
  · exact ⟨_, rfl⟩

/-- Every form that faults does so in one of the accesses its rows of the tables list. `PREFIX CB`, which fetches, is
apart. -/
theorem formOperation_fault {x : Form} {s : Running} {f : Fault} (hx : x ≠ .prefixCb)
    (h : formOperation x s = .error f) : DataFault x s f := by
  cases x with
  | nop => cases h
  | ldRegReg dst src => cases h
  | ldRegIndHl dst => exact load_indirect_fault (by simp [loadsFrom]) h
  | ldRegImm dst n => cases h
  | ldAIndBc => exact load_indirect_fault (by simp [loadsFrom]) h
  | ldAIndDe => exact load_indirect_fault (by simp [loadsFrom]) h
  | ldPairImm p n => cases h
  | ldSpHl => cases h
  | ldhIndImmA n => exact .of_memWrite (by simp [storesTo]) h
  | ldIndCA => exact .of_memWrite (by simp [storesTo]) h
  | ldIndHlIncA => exact storeHlThen_fault (by simp [storesTo]) h
  | ldIndHlDecA => exact storeHlThen_fault (by simp [storesTo]) h
  | ldIndAbsA n => exact .of_memWrite (by simp [storesTo]) h
  | incReg r => cases h
  | decReg r => cases h
  | incPair p => cases h
  | decPair p => cases h
  | xorA => cases h
  | cpReg r => cases h
  | cpIndHl => exact compareAcc_indirect_fault (by simp [loadsFrom]) h
  | cpImm n => cases h
  | rla => cases h
  | jr e => cases h
  | jrCond cc e =>
    obtain ⟨t, ht⟩ := jumpIf_completes cc e s
    cases ht.symm.trans h
  | call n => exact call_fault h
  | ret => exact ret_fault h
  | push q => exact push16_fault h rfl
  | pop q => exact pop_fault h
  | prefixCb => exact absurd rfl hx
  | cb o =>
    obtain ⟨t, ht, -⟩ := cbOperation_completes o s
    cases ht.symm.trans h

/-- No form's addresses depend on pc (R58). -/
theorem loadsFrom_pc (x : Form) (s : Running) (p : Word) : loadsFrom x { s with pc := p } = loadsFrom x s := by
  cases x <;> rfl

theorem storesTo_pc (x : Form) (s : Running) (p : Word) : storesTo x { s with pc := p } = storesTo x s := by
  cases x <;> rfl

/-- Fetching, which moves pc alone, changes no data access. -/
theorem DataFault.of_pc {x : Form} {s : Running} {p : Word} {f : Fault} (h : DataFault x { s with pc := p } f) :
    DataFault x s f := by
  cases h with
  | load ha hr => exact .load (loadsFrom_pc x s p ▸ ha) (memRead_pc s p _ ▸ hr)
  | store ha hw => exact .store (storesTo_pc x s p ▸ ha) hw

/-- `PREFIX CB` faults in the fetch of the second byte, or because the byte is not admitted (R91, R170). -/
theorem prefixOperation_fault {s : Running} {f : Fault} (h : prefixOperation s = .error f) :
    memRead s s.pc = .error f ∨
    ∃ op2, memRead s s.pc = .ok op2 ∧ admittedCb op2 = false ∧ f = .decodeErrorCb op2 := by
  unfold prefixOperation at h
  cases hr : memRead s s.pc with
  | error g =>
    rw [fetch8_of_fault hr] at h
    cases h
    exact .inl rfl
  | ok op2 =>
    rw [fetch8_of_read hr] at h
    cases ho : decodeCbOp op2 with
    | none =>
      simp only [ho] at h
      cases h
      exact .inr ⟨op2, rfl, by rw [← decodeCb_isSome, decodeCb, ho]; rfl, rfl⟩
    | some o =>
      simp only [ho] at h
      obtain ⟨t, ht, -⟩ := cbOperation_completes o { s with pc := s.pc + 1 }
      cases ht.symm.trans h

/-! ### The bytes a fetch decoded -/

theorem holds_singleton {s : Running} {a : Word} {b : Byte} (h : memRead s a = .ok b) : Holds s a [b] := by
  intro k hk
  obtain rfl : k = 0 := Nat.lt_one_iff.1 hk
  rwa [BitVec.add_zero]

/-- One more byte in memory after a sequence in memory. -/
theorem Holds.concat {s : Running} {a : Word} {bytes : List Byte} {b : Byte} (hs : Holds s a bytes)
    (h : memRead s (a + BitVec.ofNat 16 bytes.length) = .ok b) : Holds s a (bytes ++ [b]) := by
  intro k hk
  obtain hlt | rfl : k < bytes.length ∨ k = bytes.length := by
    rw [List.length_append, List.length_singleton] at hk
    omega
  · rw [hs k hlt, List.getElem_append_left hlt]
  · rw [h, List.getElem_concat_length rfl]

/-- What a fetch answers, `decode` reads from the bytes at pc, and pc is past them (R20, R93). -/
theorem holds_of_fetchDecode {s t : Running} {i : Instr} (h : fetchDecode s = .ok (i, t)) :
    ∃ bytes, Holds s s.pc bytes ∧ decode bytes = .ok (i, []) ∧
      t = { s with pc := s.pc + BitVec.ofNat 16 bytes.length } := by
  obtain ⟨op, h₀, ⟨he, rfl⟩ | ⟨mk, n, he, h₁, rfl, rfl⟩ | ⟨mk, lo, hi, he, h₁, h₂, rfl, rfl⟩⟩ := fetchDecode_ok h
  · exact ⟨[op], holds_singleton h₀, by simp only [decode, he], rfl⟩
  · exact ⟨[op, n], (holds_singleton h₀).concat h₁, by simp only [decode, he], rfl⟩
  · exact ⟨[op, lo, hi], ((holds_singleton h₀).concat h₁).concat h₂, by simp only [decode, he], rfl⟩

/-! ### The cause of every fault (R221) -/

/-- An access the step makes that is not answered is a cause. -/
theorem FaultCause.of_read {s : Running} {a : Word} {f : Fault} (ha : ReadByStep s a) (h : memRead s a = .error f) :
    FaultCause s f := by
  obtain ⟨rfl, hu⟩ | ⟨rfl, hp⟩ := memRead_fault h
  · exact ⟨ha, hu⟩
  · exact ⟨ha, hp⟩

theorem FaultCause.of_fetch {s : Running} {a : Word} {f : Fault} (ha : FetchedFrom s a) (h : memRead s a = .error f) :
    FaultCause s f :=
  .of_read (.inl ha) h

/-- A fault of a data access of the instruction at pc is a cause. -/
theorem FaultCause.of_data {s : Running} {x : Form} {f : Fault} (hx : FormAtPc s x) (h : DataFault x s f) :
    FaultCause s f := by
  cases h with
  | load ha hr => exact .of_read (.inr ⟨x, hx, ha⟩) hr
  | store ha hw => exact ⟨⟨x, hx, ha⟩, hw⟩

/-- The operand bytes of the entry of the byte at pc are among the bytes the step fetches. -/
theorem FetchedFrom.operand {s : Running} {op : Byte} {e : Entry} (h : memRead s s.pc = .ok op)
    (he : primary op = some e) {k : Nat} (hk : 1 ≤ k) (hke : k ≤ e.operandBytes) :
    FetchedFrom s (s.pc + BitVec.ofNat 16 k) := by
  refine .inr ⟨op, k, h, admitted_of_primary he, hk, Nat.le_trans hke ?_, rfl⟩
  rw [operandBytes_of_primary he, bytesAfter]
  split
  · next hop => subst hop; decide
  · exact Nat.le_refl _

/-- The second byte of a CB pair is among the bytes the step fetches. -/
theorem FetchedFrom.second {s : Running} (h : memRead s s.pc = .ok 0xCB) : FetchedFrom s (s.pc + 1) :=
  .inr ⟨0xCB, 1, h, rfl, Nat.le_refl 1, Nat.le_refl 1, rfl⟩

/-- A fetch that faults has a cause: each fetch in turn, or the first byte. -/
theorem fetchDecode_faultCause {s : Running} {f : Fault} (h : fetchDecode s = .error f) : FaultCause s f := by
  cases h₀ : memRead s s.pc with
  | error g => rw [fetchDecode_fault h₀] at h; cases h; exact .of_fetch (.inl rfl) h₀
  | ok op =>
    cases he : primary op with
    | none =>
      rw [fetchDecode_unadmitted h₀ he] at h
      cases h
      exact ⟨h₀, by rw [← primary_isSome, he]; rfl⟩
    | some e =>
      have operand (k : Nat) (hk : 1 ≤ k) (hke : k ≤ e.operandBytes) := FetchedFrom.operand h₀ he hk hke
      cases e with
      | op i => rw [fetchDecode_op h₀ he] at h; cases h
      | d8 mk =>
        cases h₁ : memRead s (s.pc + 1) with
        | error g =>
          rw [fetchDecode_d8_fault h₀ he h₁] at h
          cases h
          exact .of_fetch (operand 1 (Nat.le_refl 1) (Nat.le_refl 1)) h₁
        | ok n => rw [fetchDecode_d8 h₀ he h₁] at h; cases h
      | d16 mk =>
        cases h₁ : memRead s (s.pc + 1) with
        | error g =>
          rw [fetchDecode_d16_fault h₀ he h₁] at h
          cases h
          exact .of_fetch (operand 1 (Nat.le_refl 1) (Nat.le_succ 1)) h₁
        | ok lo =>
          cases h₂ : memRead s (s.pc + 2) with
          | error g =>
            rw [fetchDecode_d16_second_fault h₀ he h₁ h₂] at h
            cases h
            exact .of_fetch (operand 2 (Nat.le_succ 1) (Nat.le_refl 2)) h₂
          | ok hi => rw [fetchDecode_d16 h₀ he h₁ h₂] at h; cases h

/-- `PREFIX CB` at pc that faults has a cause: the second byte's fetch, or that byte. -/
theorem prefixOperation_faultCause {s : Running} {f : Fault} (h₀ : memRead s s.pc = .ok 0xCB)
    (h : prefixOperation { s with pc := s.pc + 1 } = .error f) : FaultCause s f := by
  have hpc : memRead { s with pc := s.pc + 1 } (s.pc + 1) = memRead s (s.pc + 1) := memRead_pc ..
  obtain h₁ | ⟨op2, h₁, ha, rfl⟩ := prefixOperation_fault h
  · exact .of_fetch (.second h₀) (hpc ▸ h₁)
  · exact ⟨h₀, hpc ▸ h₁, ha⟩

/-- A step of a running machine that faults has a fetch that faulted, or ran a decoded instruction that did. -/
theorem step_fault {s : Running} {f : Fault} (h : step (.running s) = .fault f) :
    fetchDecode s = .error f ∨
    ∃ i t, fetchDecode s = .ok (i, t) ∧ formOperation i.form t = .error f := by
  rw [step_running] at h
  cases hf : fetchDecode s with
  | error g => rw [hf] at h; cases h; exact .inl rfl
  | ok x => rw [hf] at h; exact .inr ⟨x.1, x.2, rfl, exec_fault.1 h⟩

/-- Settles O12: the step faults in its fetch, in `PREFIX CB`, or in a data access of the instruction at pc. -/
theorem everyFaultHasItsCause : Obligations.EveryFaultHasItsCause := by
  unfold Obligations.EveryFaultHasItsCause
  intro s f h
  obtain hf | ⟨i, t, hf, hi⟩ := step_fault h
  · exact fetchDecode_faultCause hf
  · obtain ⟨bytes, hs, hd, rfl⟩ := holds_of_fetchDecode hf
    by_cases hp : i = .prefixCb
    · subst hp
      obtain rfl : bytes = [0xCB] := encode_of_decode hd
      exact prefixOperation_faultCause hs.head hi
    · have hx : i.form ≠ .prefixCb := fun hx => hp (by rw [← toInstr_form i, hx]; rfl)
      exact .of_data ⟨bytes, i, hs, decodeWhole_of_decode hd hp, rfl⟩ (formOperation_fault hx hi).of_pc

end Sys2Proof.Machine
end
